-- ==== Sys2Proof/Word.lean ====
section
/-! DEFINITION. The word types of BFSV (spec/00_scope.md R6, R7): every value is an unsigned bit string of a
fixed width. -/

namespace Sys2Proof

/-- The unit of both wire protocols and of every byte store, 8 bits (R6, "byte"). -/
abbrev Byte := BitVec 8

/-- A command word, 16 bits (R6 `CMD_W`, R80). -/
abbrev CmdWord := BitVec 16

/-- A channel value, a window entry or the operand register, 16 bits (R6 `VAL_W`). -/
abbrev Val := BitVec 16

/-- A packed channel field, 11 bits (R6 `RAW_W`). -/
abbrev Raw := BitVec 11

end Sys2Proof
end

