-- ==== Sys2Proof/Config.lean ====
section
/-! DEFINITION. The implementation parameters of spec/00_scope.md R6. The rows its table marks "model argument" are the
fields of `Params`, with the table's values as defaults; the other rows are the constants below it. The CRC table
is `Sys2Proof.Machine.crcRom` in Machine/Crc.lean; the CRC functions and the frame search take a table as argument. -/

namespace Sys2Proof.Config

/-- The parameters that a model takes as arguments (R6, "model argument"). They are fixed for a block and are no state
of it (R45 b); `Machine.State` carries them beside the block (log 5). -/
structure Params where
  /-- Largest legal window size (R6 `MF_WMAX`). -/
  mfWMax : Nat := 8
  /-- Reset value of CR.ADDR (R6 `ADDR_RST`; PRESUMED, log 6). -/
  addrRst : Byte := 0xC8#8
  /-- Reset value of CR.MAXLEN (R6 `MAXLEN_RST`; PRESUMED, log 6). -/
  maxlenRst : Byte := 62#8
  /-- Reset value of CR.RCTYPE (R6 `RCTYPE_RST`; PRESUMED, log 6). -/
  rctypeRst : Byte := 0x16#8
  /-- Bits of the age counter (R6 `AGE_W`). -/
  ageW : Nat := 32
  deriving DecidableEq, Repr

/-- The block of R6's table: every argument at its default. -/
def defaults : Params := {}

/-- What R6 asks of the arguments: MF_WMAX at least 3 and AGE_W a multiple of 8; that AGE_W is not 0 is DEDUCED (log 5:
with no bit CR.STAT could not read 0x00 after reset, R41). -/
abbrev Params.Legal (p : Params) : Prop := 3 ≤ p.mfWMax ∧ 0 < p.ageW ∧ p.ageW % 8 = 0

/-- Number of RC channels (R6 `NCH`). -/
abbrev nch : Nat := 16

/-- Bytes of an RC-channels payload (R6 `RC_PAYLOAD`). -/
abbrev rcPayload : Nat := 22

/-- Offset of the microsecond map (R6 `US_BASE`). -/
abbrev usBase : Nat := 988

/-- Numerator of the microsecond map (R6 `US_NUM`). -/
abbrev usNum : Nat := 1024

/-- Divisor of the microsecond map (R6 `US_DEN`). -/
abbrev usDen : Nat := 1984

/-- Channel register value before any frame (R6 `CH_DEFAULT`). -/
abbrev chDefault : Val := 1500#16

/-- Largest MSP payload (R6 `MSP_MAXPAY`). -/
abbrev mspMaxPay : Nat := 255

/-- Median window size after reset (R6 `MF_WIN_RST`). -/
abbrev mfWinRst : Byte := 3#8

/-- The median filter is present (R6 `HAS_MF` = 1). -/
abbrev hasMf : Bool := true

/-- CRC-8 generator without its x^8 term (R6 `CRC_POLY`; PRESUMED, log 7: the spec marks it general knowledge). -/
abbrev crcPoly : Byte := 0xD5#8

/-- Bytes of CRSF buffer storage (R6 `CBUF_CAP`, R161). -/
abbrev cbufCap : Nat := 257

/-- The character `$` (R90; PRESUMED, log 8: the codes are ASCII). -/
abbrev mspDollar : Byte := 0x24#8

/-- The character `M` (R90; PRESUMED, log 8). -/
abbrev mspM : Byte := 0x4D#8

/-- The direction `<` of a request (R90; PRESUMED, log 8). -/
abbrev mspRequest : Byte := 0x3C#8

/-- The direction `>` of a response (R90; PRESUMED, log 8). -/
abbrev mspResponse : Byte := 0x3E#8

end Sys2Proof.Config
end

