-- ==== Sys2Proof/Syntax.lean ====
section
/-! DEFINITION. The 26 operations of spec/opcode_table.json (spec/30_encoding.md R84), one constructor each. Operands
are the fields R81 to R83 give: `imm` a byte, `minor` a number of four bits. -/

namespace Sys2Proof

/-- One operation of BFSV (R80, R84). -/
inductive Instr where
  /-- NOP (R200). -/
  | nop
  /-- SRST, soft reset (R201). -/
  | srst
  /-- TICK (R203). -/
  | tick
  /-- GETAGE (R204). -/
  | getage
  /-- GETCH: `imm` is the channel number (R202). -/
  | getch (imm : Byte)
  /-- OPLO: `imm` is the low byte of OPR (R205). -/
  | oplo (imm : Byte)
  /-- OPHI: `imm` is the high byte of OPR (R206). -/
  | ophi (imm : Byte)
  /-- WRCR: `minor` is the control-register number, `imm` the value (R207). -/
  | wrcr (minor : BitVec 4) (imm : Byte)
  /-- RDCR: `minor` is the control-register number (R208). -/
  | rdcr (minor : BitVec 4)
  /-- XOR_INIT (R112). -/
  | xorInit
  /-- XOR_UPD: `imm` is a data byte (R113). -/
  | xorUpd (imm : Byte)
  /-- XOR_RD (R114). -/
  | xorRd
  /-- XOR_CHK: `imm` is the received checksum (R115). -/
  | xorChk (imm : Byte)
  /-- MSP_PUSH: `imm` is a received byte (R122). -/
  | mspPush (imm : Byte)
  /-- MSP_ABORT (R130). -/
  | mspAbort
  /-- ENC_OPEN: `imm` is the command code (R131). -/
  | encOpen (imm : Byte)
  /-- ENC_BYTE: `imm` is a payload byte (R132). -/
  | encByte (imm : Byte)
  /-- ENC_CLOSE (R133). -/
  | encClose
  /-- CRC_INIT (R143). -/
  | crcInit
  /-- CRC_UPD: `imm` is a data byte (R144). -/
  | crcUpd (imm : Byte)
  /-- CRC_RD (R145). -/
  | crcRd
  /-- CRSF_PUSH: `imm` is a received byte (R151). -/
  | crsfPush (imm : Byte)
  /-- DEC_OPEN (R177). -/
  | decOpen
  /-- DEC_BYTE: `imm` is a payload byte (R178). -/
  | decByte (imm : Byte)
  /-- DEC_CLOSE (R179). -/
  | decClose
  /-- MF_UPD: `minor` is the channel number minus one (R193). -/
  | mfUpd (minor : BitVec 4)
  deriving DecidableEq, Repr

end Sys2Proof
end

