-- ==== Sys2Proof/WellFormed.lean ====
section
/-! DEFINITION. Well-formedness. An operation has only operands whose type is the field that holds them, so every
`Instr` is well formed by its type and there is no check to make on one (R82, R83). What can be ill formed is a command
WORD: `legalWord` says which are legal, written clause by clause from the list of illegal words of
spec/30_encoding.md R85, not from the opcode map R84 that the decoder follows. -/

namespace Sys2Proof

/-- A command word that is none of the illegal words R85 lists, clause by clause. -/
def legalWord (w : CmdWord) : Bool :=
  let major := w.toNat / 4096
  let minor := w.toNat / 256 % 16
  let immZero := w.toNat % 256 == 0
  !(   (major == 0 && 7 ≤ minor)
    || (major == 0 && minor ≤ 3 && !immZero)
    || (major == 2 && !immZero)
    || (major == 3 && 4 ≤ minor)
    || (major == 3 && (minor == 0 || minor == 2) && !immZero)
    || (major == 4 && 5 ≤ minor)
    || (major == 4 && (minor == 1 || minor == 4) && !immZero)
    || (major == 5 && 3 ≤ minor)
    || (major == 5 && (minor == 0 || minor == 2) && !immZero)
    || (major == 6 && 1 ≤ minor)
    || (major == 7 && 3 ≤ minor)
    || (major == 7 && (minor == 0 || minor == 2) && !immZero)
    || (major == 8 && !immZero)
    || 9 ≤ major)

end Sys2Proof
end

