-- ==== Sys2Proof/Decode.lean ====
section
/-! DEFINITION. The decoder of command words (spec/30_encoding.md R81 to R87), the encoder, and the opcode map of R84 as
data. The decoder is total on the 65 536 words, reads nothing but the word, and rejects by name. -/

namespace Sys2Proof

/-- `major = w[15:12]`, which selects the unit (R81). -/
def majorOf (w : CmdWord) : BitVec 4 := w.extractLsb' 12 4

/-- `minor = w[11:8]`, which selects the operation or is a number (R81). -/
def minorOf (w : CmdWord) : BitVec 4 := w.extractLsb' 8 4

/-- `imm = w[7:0]` (R81). -/
def immOf (w : CmdWord) : Byte := w.extractLsb' 0 8

/-- Why a word is illegal: the three kinds of clause in R85. Each raises IllegalOp and nothing tells them apart
outside the decoder. -/
inductive IllegalWord where
  /-- Majors 9 to 15 are reserved (R85, R86). -/
  | reservedMajor (w : CmdWord)
  /-- The unit has no operation with this minor (R85). -/
  | reservedMinor (w : CmdWord)
  /-- A format Z or N word whose `imm` is not 0x00 (R82, R85). -/
  | immNotZero (w : CmdWord)
  deriving DecidableEq, Repr

/-- Formats Z and N: `imm` must be 0x00 (R82). -/
def needZeroImm (w : CmdWord) (i : Instr) : Except IllegalWord Instr :=
  if immOf w = 0x00#8 then .ok i else .error (.immNotZero w)

/-- Major 0: housekeeping and session (R84). -/
def decodeSystem (w : CmdWord) : Except IllegalWord Instr :=
  match (minorOf w).toNat with
  | 0 => needZeroImm w .nop
  | 1 => needZeroImm w .srst
  | 2 => needZeroImm w .tick
  | 3 => needZeroImm w .getage
  | 4 => .ok (.getch (immOf w))
  | 5 => .ok (.oplo (immOf w))
  | 6 => .ok (.ophi (immOf w))
  | _ => .error (.reservedMinor w)

/-- Major 3: the XOR checksum (R84). -/
def decodeXor (w : CmdWord) : Except IllegalWord Instr :=
  match (minorOf w).toNat with
  | 0 => needZeroImm w .xorInit
  | 1 => .ok (.xorUpd (immOf w))
  | 2 => needZeroImm w .xorRd
  | 3 => .ok (.xorChk (immOf w))
  | _ => .error (.reservedMinor w)

/-- Major 4: the MSP framer (R84). -/
def decodeMsp (w : CmdWord) : Except IllegalWord Instr :=
  match (minorOf w).toNat with
  | 0 => .ok (.mspPush (immOf w))
  | 1 => needZeroImm w .mspAbort
  | 2 => .ok (.encOpen (immOf w))
  | 3 => .ok (.encByte (immOf w))
  | 4 => needZeroImm w .encClose
  | _ => .error (.reservedMinor w)

/-- Major 5: the CRC-8 (R84). -/
def decodeCrc (w : CmdWord) : Except IllegalWord Instr :=
  match (minorOf w).toNat with
  | 0 => needZeroImm w .crcInit
  | 1 => .ok (.crcUpd (immOf w))
  | 2 => needZeroImm w .crcRd
  | _ => .error (.reservedMinor w)

/-- Major 6: the CRSF parser (R84). -/
def decodeCrsf (w : CmdWord) : Except IllegalWord Instr :=
  match (minorOf w).toNat with
  | 0 => .ok (.crsfPush (immOf w))
  | _ => .error (.reservedMinor w)

/-- Major 7: the stand-alone channel decoder (R84). -/
def decodeDec (w : CmdWord) : Except IllegalWord Instr :=
  match (minorOf w).toNat with
  | 0 => needZeroImm w .decOpen
  | 1 => .ok (.decByte (immOf w))
  | 2 => needZeroImm w .decClose
  | _ => .error (.reservedMinor w)

/-- The decoder of R80 to R87: exactly one operation, or illegal, from the word alone. -/
def decode (w : CmdWord) : Except IllegalWord Instr :=
  match (majorOf w).toNat with
  | 0 => decodeSystem w
  | 1 => .ok (.wrcr (minorOf w) (immOf w))
  | 2 => needZeroImm w (.rdcr (minorOf w))
  | 3 => decodeXor w
  | 4 => decodeMsp w
  | 5 => decodeCrc w
  | 6 => decodeCrsf w
  | 7 => decodeDec w
  | 8 => needZeroImm w (.mfUpd (minorOf w))
  | _ => .error (.reservedMajor w)

/-- A command word from its three fields, `major` the most significant (R81). -/
def packWord (major minor : BitVec 4) (imm : Byte) : CmdWord := (major ++ minor) ++ imm

/-- The word of an operation (R84, the "word" column). -/
def encode : Instr → CmdWord
  | .nop => packWord 0 0 0
  | .srst => packWord 0 1 0
  | .tick => packWord 0 2 0
  | .getage => packWord 0 3 0
  | .getch imm => packWord 0 4 imm
  | .oplo imm => packWord 0 5 imm
  | .ophi imm => packWord 0 6 imm
  | .wrcr minor imm => packWord 1 minor imm
  | .rdcr minor => packWord 2 minor 0
  | .xorInit => packWord 3 0 0
  | .xorUpd imm => packWord 3 1 imm
  | .xorRd => packWord 3 2 0
  | .xorChk imm => packWord 3 3 imm
  | .mspPush imm => packWord 4 0 imm
  | .mspAbort => packWord 4 1 0
  | .encOpen imm => packWord 4 2 imm
  | .encByte imm => packWord 4 3 imm
  | .encClose => packWord 4 4 0
  | .crcInit => packWord 5 0 0
  | .crcUpd imm => packWord 5 1 imm
  | .crcRd => packWord 5 2 0
  | .crsfPush imm => packWord 6 0 imm
  | .decOpen => packWord 7 0 0
  | .decByte imm => packWord 7 1 imm
  | .decClose => packWord 7 2 0
  | .mfUpd minor => packWord 8 minor 0

/-- The mnemonic of an operation (R84, R88). -/
def Instr.mnemonic : Instr → String
  | .nop => "NOP" | .srst => "SRST" | .tick => "TICK" | .getage => "GETAGE" | .getch _ => "GETCH"
  | .oplo _ => "OPLO" | .ophi _ => "OPHI" | .wrcr _ _ => "WRCR" | .rdcr _ => "RDCR"
  | .xorInit => "XOR_INIT" | .xorUpd _ => "XOR_UPD" | .xorRd => "XOR_RD" | .xorChk _ => "XOR_CHK"
  | .mspPush _ => "MSP_PUSH" | .mspAbort => "MSP_ABORT" | .encOpen _ => "ENC_OPEN"
  | .encByte _ => "ENC_BYTE" | .encClose => "ENC_CLOSE"
  | .crcInit => "CRC_INIT" | .crcUpd _ => "CRC_UPD" | .crcRd => "CRC_RD"
  | .crsfPush _ => "CRSF_PUSH"
  | .decOpen => "DEC_OPEN" | .decByte _ => "DEC_BYTE" | .decClose => "DEC_CLOSE"
  | .mfUpd _ => "MF_UPD"

/-- The four formats of R82. -/
inductive Format where
  | Z | I | N | NI
  deriving DecidableEq, Repr

/-- A row of the opcode map of R84. -/
structure OpcodeRow where
  mnemonic : String
  format : Format
  pattern : CmdWord
  mask : CmdWord
  deriving DecidableEq, Repr

/-- A word is a row's operation when `w & mask = match` (R84). -/
def OpcodeRow.admits (r : OpcodeRow) (w : CmdWord) : Bool := w &&& r.mask == r.pattern

/-- The opcode map of R84, row by row. -/
def opcodeMap : List OpcodeRow :=
  [ ⟨"NOP", .Z, 0x0000, 0xFFFF⟩, ⟨"SRST", .Z, 0x0100, 0xFFFF⟩, ⟨"TICK", .Z, 0x0200, 0xFFFF⟩,
    ⟨"GETAGE", .Z, 0x0300, 0xFFFF⟩, ⟨"GETCH", .I, 0x0400, 0xFF00⟩, ⟨"OPLO", .I, 0x0500, 0xFF00⟩,
    ⟨"OPHI", .I, 0x0600, 0xFF00⟩, ⟨"WRCR", .NI, 0x1000, 0xF000⟩, ⟨"RDCR", .N, 0x2000, 0xF0FF⟩ ] ++
  [ ⟨"XOR_INIT", .Z, 0x3000, 0xFFFF⟩, ⟨"XOR_UPD", .I, 0x3100, 0xFF00⟩, ⟨"XOR_RD", .Z, 0x3200, 0xFFFF⟩,
    ⟨"XOR_CHK", .I, 0x3300, 0xFF00⟩, ⟨"MSP_PUSH", .I, 0x4000, 0xFF00⟩, ⟨"MSP_ABORT", .Z, 0x4100, 0xFFFF⟩,
    ⟨"ENC_OPEN", .I, 0x4200, 0xFF00⟩, ⟨"ENC_BYTE", .I, 0x4300, 0xFF00⟩, ⟨"ENC_CLOSE", .Z, 0x4400, 0xFFFF⟩ ] ++
  [ ⟨"CRC_INIT", .Z, 0x5000, 0xFFFF⟩, ⟨"CRC_UPD", .I, 0x5100, 0xFF00⟩, ⟨"CRC_RD", .Z, 0x5200, 0xFFFF⟩,
    ⟨"CRSF_PUSH", .I, 0x6000, 0xFF00⟩, ⟨"DEC_OPEN", .Z, 0x7000, 0xFFFF⟩, ⟨"DEC_BYTE", .I, 0x7100, 0xFF00⟩,
    ⟨"DEC_CLOSE", .Z, 0x7200, 0xFFFF⟩, ⟨"MF_UPD", .N, 0x8000, 0xF0FF⟩ ]

/-- The host's reading of a table word: bits 0 to 15 of `w` are the one command word (R80: every word is 16 bits). Bits
above `nbits` count as 0, and bits above 15 are no part of the first word (DESIGN CHOICE, log 11). -/
def decodeTableWord (nbits w : Nat) : Option Instr :=
  match decode (BitVec.ofNat 16 (w % 2 ^ nbits)) with
  | .ok i => some i
  | .error _ => none

end Sys2Proof
end

