-- ==== Sys2Proof/Machine/State.lean ====
section
/-! DEFINITION. The state of BFSV (spec/10_state.md R20: `Block`), what a run carries beside it (`State`), the events it
emits (spec/30_encoding.md R100 to R109), why a step can stop, and the state after reset (R46). State is plain data. -/

namespace Sys2Proof.Machine

/-- The states of the MSP decoder (R28). `done` is transient: it never stands between two operations (R128). -/
inductive MspState where
  | seekHeader | readLength | readCommand | readPayload | readChecksum | done
  deriving DecidableEq, Repr

/-- A byte store indexed by the block: cells (index, byte) in strictly rising order of index. An index that is not
listed has NO value (R30 to R32, R46: unspecified; DESIGN CHOICE, safe, log 3). -/
abbrev Memory := List Host.Cell

/-- The byte stores an operation can address (R60). -/
inductive Space where
  | mspPay | txb | dbuf | cbuf
  deriving DecidableEq, Repr

/-- The errors the block reports by an event (R221). -/
inductive ErrorCode where
  | invalidPayloadLength | payloadTooLarge | outOfRange | illegalOp
  deriving DecidableEq, Repr

/-- One record of the event port, as a typed value (R100 allows it); its bytes are `Event.bytes` of
Machine/EventPort.lean. -/
inductive Event where
  /-- EV_FRAME: the `L + 2` bytes of an accepted CRSF frame (R101). -/
  | frame (bytes : List Byte)
  /-- EV_CHAN: the 16 channel registers (R102). -/
  | chan (values : Vector Val 16)
  /-- EV_MSP: direction, length, command, payload of an accepted response (R103). -/
  | msp (direction length command : Byte) (payload : List Byte)
  /-- EV_TX: the bytes of an encoded request (R104). -/
  | tx (bytes : List Byte)
  /-- EV_VAL8 (R105). -/
  | val8 (value : Byte)
  /-- EV_VAL16 (R106). -/
  | val16 (value : Val)
  /-- EV_DEC: 16 unfiltered microsecond values (R107). -/
  | dec (values : Vector Val 16)
  /-- EV_AGE (R108). -/
  | age (value : Nat)
  /-- EV_ERR (R109). -/
  | err (code : ErrorCode)
  deriving DecidableEq, Repr

/-- Why the model stops. The spec has no stop (R249): each fault stands where the spec says a state or an access does
not occur, none is reachable from reset, and all are safe (the model then says nothing). -/
inductive Fault where
  /-- MSP_PUSH or ENC_CLOSE or DEC_CLOSE would read bytes 0 to `count - 1` of a store of which one was never written
  (R30 to R32: never read). Raised by `loadBytes`. Safe; log 3. -/
  | unwrittenByte (space : Space) (count : Nat)
  /-- MSP_PUSH would write MSP_PAY, or CRSF_PUSH would append to CBUF, outside the store's size (R126, R161: does not
  happen). Raised by `checkRoom`. Safe; log 9. -/
  | outsideStore (space : Space) (index : Nat)
  /-- MSP_PUSH met MSP_ST = Done (R122: does not occur). Raised by `execMspPush`. Safe; log 4. -/
  | mspDoneStored
  deriving DecidableEq, Repr

/-- Why the model refuses. Nothing is refused: every operation has its meaning. -/
inductive Refusal where
  /-- An instruction whose arm of `exec` has no meaning yet. Raised by no arm. Safe. -/
  | notModelled (mnemonic : String)
  deriving DecidableEq, Repr

/-- The state of the block: exactly the fields of R20's table. CRC_ROM, which is constant, is the definition `crcRom`
(R43). -/
structure Block where
  /-- OPR, the operand register of MF_UPD (R21). -/
  opr : Val
  /-- XORA, the stand-alone XOR accumulator (R22). -/
  xora : Byte
  /-- CRCA, the stand-alone CRC accumulator (R23). -/
  crca : Byte
  /-- CH[1..16]; index `k - 1` holds channel `k` (R25). -/
  ch : Vector Val 16
  /-- WIN[1..16], oldest sample first; index `k - 1` holds channel `k` (R26). -/
  win : Vector (List Val) 16
  /-- MSP_ST (R28). -/
  mspSt : MspState
  /-- HDR, header bytes matched so far (R28). -/
  hdr : BitVec 2
  /-- MSP_LEN (R29). -/
  mspLen : Byte
  /-- MSP_CMD (R29). -/
  mspCmd : Byte
  /-- MSP_CNT (R29). -/
  mspCnt : Byte
  /-- MSP_CK, the running XOR of the frame being received (R29). -/
  mspCk : Byte
  /-- MSP_PAY[0..254] (R30). -/
  mspPay : Memory
  /-- TXCMD (R31). -/
  txCmd : Byte
  /-- TXN (R31). -/
  txN : Byte
  /-- TXOVF (R31). -/
  txOvf : Bool
  /-- TXB[0..254] (R31). -/
  txb : Memory
  /-- DN (R32). -/
  dn : BitVec 5
  /-- DOVF (R32). -/
  dOvf : Bool
  /-- DBUF[0..21] (R32). -/
  dbuf : Memory
  /-- CBUF, oldest byte first (R33). -/
  cbuf : List Byte
  /-- AGE (R34), below `2^AGE_W`; a number, because AGE_W is a model argument (log 5). -/
  age : Nat
  /-- SEEN (R34). -/
  seen : Bool
  /-- CR.ADDR, control register 0 (R36). -/
  crAddr : Byte
  /-- CR.MAXLEN, control register 1 (R37). -/
  crMaxlen : Byte
  /-- CR.RCTYPE, control register 2 (R38). -/
  crRctype : Byte
  /-- CR.MFWIN, control register 3 (R39). -/
  crMfwin : Byte
  /-- CR.ERR, control register 4 (R40). -/
  crErr : Byte
  deriving DecidableEq, Repr

/-- What a run of the model carries from step to step: the state of the block, the parameters it is built with, and the
two ports. Parameters, words not yet taken and past events are no state of the block (R45, R100); they stand beside it
because the host's step is a function of this one value (log 1, 2 and 5). -/
structure State extends Block where
  /-- The parameters of the block (R6); no step changes them (log 5). -/
  params : Config.Params
  /-- The command port: the words the host has issued and the block has not taken, next first (R80; DESIGN CHOICE,
  log 1). -/
  port : List CmdWord
  /-- The event port: every event emitted, in order; part of the run's output (R100; DESIGN CHOICE, log 2). -/
  events : List Event
  deriving DecidableEq, Repr

/-- The block after reset (R46, R240): every element at the value of R46's table. The contents of the byte stores are
unspecified, so no cell is listed. -/
def Block.reset (p : Config.Params) : Block where
  opr := 0x0000#16
  xora := 0x00#8
  crca := 0x00#8
  ch := Vector.replicate 16 Config.chDefault
  win := Vector.replicate 16 []
  mspSt := .seekHeader
  hdr := 0#2
  mspLen := 0#8
  mspCmd := 0#8
  mspCnt := 0#8
  mspCk := 0#8
  mspPay := []
  txCmd := 0x00#8
  txN := 0#8
  txOvf := false
  txb := []
  dn := 0#5
  dOvf := false
  dbuf := []
  cbuf := []
  age := 0
  seen := false
  crAddr := p.addrRst
  crMaxlen := p.maxlenRst
  crRctype := p.rctypeRst
  crMfwin := Config.mfWinRst
  crErr := 0x00#8

/-- A block built with those parameters, right after hardware reset: the event port empty, no command word waiting
(R240). -/
def State.resetWith (p : Config.Params) : State where
  toBlock := Block.reset p
  params := p
  port := []
  events := []

/-- Hardware reset of the block of R6's table. -/
def State.reset : State := State.resetWith Config.defaults

end Sys2Proof.Machine
end

