-- ==== Sys2Proof/Machine/Flags.lean ====
section
/-! DEFINITION. The eight sticky flags of CR.ERR (spec/10_state.md R40, spec/60_exceptions.md R223). CR.ERR is the only
status word with flags, and these are all the ways a flag is computed: set, and write-one-to-clear. -/

namespace Sys2Proof.Machine

/-- The flags of CR.ERR (R40). -/
inductive ErrFlag where
  | crsfDesync | crsfLeninv | crsfCrcerr | mspDesync | mspCkerr | decerr | illop | trunc
  deriving DecidableEq, Repr

/-- The place of a flag in CR.ERR (R40). -/
def ErrFlag.bit : ErrFlag → Nat
  | .crsfDesync => 0
  | .crsfLeninv => 1
  | .crsfCrcerr => 2
  | .mspDesync => 3
  | .mspCkerr => 4
  | .decerr => 5
  | .illop => 6
  | .trunc => 7

/-- The byte with that one bit set. -/
def ErrFlag.mask (f : ErrFlag) : Byte := 1#8 <<< f.bit

/-- Whether a flag of CR.ERR is set. -/
def State.flag (s : State) (f : ErrFlag) : Bool := s.crErr.getLsbD f.bit

/-- Set a flag; one that is set already stays set (R223). -/
def setFlag (f : ErrFlag) (s : State) : State := { s with crErr := s.crErr ||| f.mask }

/-- Write-one-to-clear: `ERR <- ERR & ~m` (R40, R207). -/
def clearFlags (m : Byte) (s : State) : State := { s with crErr := s.crErr &&& ~~~m }

end Sys2Proof.Machine
end

