-- ==== Sys2Proof/Machine/Ops.lean ====
section
/-! DEFINITION. The shared operations: the byte stores (spec/20_memory.md R60 to R62), slices of a byte sequence
(spec/00_scope.md R8), the event port (`emit`), taking an error (`raise`, spec/60_exceptions.md R222), and the command
port. There is no return from an error, because nothing is saved (R226, R227). -/

namespace Sys2Proof.Machine

/-! ## Byte stores -/

/-- The byte at an index, if one was written. -/
def memRead : Memory → Nat → Option Byte
  | [], _ => none
  | (a, b) :: m, i => if a = i then some b else memRead m i

/-- Write one byte, keeping the indexes strictly rising. -/
def memWrite : Memory → Nat → Byte → Memory
  | [], i, v => [(i, v)]
  | (a, b) :: m, i, v =>
    if i < a then (i, v) :: (a, b) :: m
    else if i = a then (i, v) :: m
    else (a, b) :: memWrite m i v

/-- The bytes at indexes 0 to `n - 1`, if all were written. -/
def memPrefix (m : Memory) : Nat → Option (List Byte)
  | 0 => some []
  | n + 1 =>
    match memPrefix m n, memRead m n with
    | some p, some b => some (p ++ [b])
    | _, _ => none

/-- The canonical form: indexes strictly rising, so equal stores are equal lists. -/
abbrev Memory.wf (m : Memory) : Prop := m.Pairwise fun x y => x.1 < y.1

/-- Every listed index lies inside a store of that size. -/
abbrev Memory.within (m : Memory) (size : Nat) : Prop := ∀ c ∈ m, c.1 < size

/-- Bytes of storage (R60, R6). -/
def Space.size : Space → Nat
  | .mspPay => Config.mspMaxPay
  | .txb => Config.mspMaxPay
  | .dbuf => Config.rcPayload
  | .cbuf => Config.cbufCap

/-- Bytes 0 to `n - 1` of a store; a byte that was never written has no value to read (log 3). -/
def loadBytes (sp : Space) (m : Memory) (n : Nat) : Except Fault (List Byte) :=
  match memPrefix m n with
  | some p => .ok p
  | none => .error (.unwrittenByte sp n)

/-- An access to a store lies inside it (log 9). -/
def checkRoom (sp : Space) (i : Nat) : Except Fault Unit :=
  if i < sp.size then .ok () else .error (.outsideStore sp i)

/-! ## Byte sequences -/

/-- `s[i..j]`, elements `i` to `j` inclusive, empty when `j < i` (R8). -/
def slice (s : List Byte) (i j : Nat) : List Byte := (s.drop i).take (j + 1 - i)

/-! ## The event port and errors -/

/-- Append an event to the event port (R9, R100). -/
def emit (e : Event) (s : State) : State := { s with events := s.events ++ [e] }

/-- The code byte of an error (R221). -/
def ErrorCode.code : ErrorCode → Byte
  | .invalidPayloadLength => 0x01#8
  | .payloadTooLarge => 0x02#8
  | .outOfRange => 0x03#8
  | .illegalOp => 0x04#8

/-- The sticky flag an error sets (R221). -/
def ErrorCode.flag : ErrorCode → ErrFlag
  | .invalidPayloadLength => .decerr
  | .payloadTooLarge => .decerr
  | .outOfRange => .decerr
  | .illegalOp => .illop

/-- `raise X`: one EV_ERR and one sticky flag, nothing else; the operation goes on (R222). -/
def raise (e : ErrorCode) (s : State) : State := setFlag e.flag (emit (.err e) s)

/-- What an illegal word does: `raise IllegalOp` (R85). -/
def takeIllegal (s : State) : Host.Outcome State Fault Refusal := .next (raise .illegalOp s)

/-! ## The command port -/

/-- Take the next command word off the command port (R5, R80; log 1). -/
def fetch (s : State) : Option (CmdWord × State) :=
  match s.port with
  | [] => none
  | w :: rest => some (w, { s with port := rest })

/-- With no command word the block keeps its state (R234). -/
def idle (s : State) : Host.Outcome State Fault Refusal := .next s

/-- The host issues a command word that the block takes next (log 1). -/
def issueNext (w : CmdWord) (s : State) : State := { s with port := w :: s.port }

end Sys2Proof.Machine
end

