-- ==== Sys2Proof/Machine/Operands.lean ====
section
/-! DEFINITION. Operand forms: channel numbers and control-register numbers (spec/30_encoding.md R83), the halves of
OPR (spec/10_state.md R21), little-endian bytes (spec/20_memory.md R67), and the control registers as a file
(R35 to R42). -/

namespace Sys2Proof.Machine

/-- GETCH: `imm` is the channel number itself; 1 to 16 are legal (R83, R202). The answer indexes CH and WIN, channel
`k` at `k - 1`. -/
def channelOfImm (imm : Byte) : Option (Fin 16) :=
  if h : 1 ≤ imm.toNat ∧ imm.toNat ≤ 16 then some ⟨imm.toNat - 1, by omega⟩ else none

/-- MF_UPD: `minor` 0 to 15 names channels 1 to 16 (R83), channel `k` at index `k - 1`. -/
def channelOfMinor (minor : BitVec 4) : Fin 16 := minor.toFin

/-- `v[7:0]`. -/
def lowByte (v : Val) : Byte := v.extractLsb' 0 8

/-- `v[15:8]`. -/
def highByte (v : Val) : Byte := v.extractLsb' 8 8

/-- `v` with its low byte replaced (R205). -/
def withLowByte (v : Val) (b : Byte) : Val := highByte v ++ b

/-- `v` with its high byte replaced (R206). -/
def withHighByte (v : Val) (b : Byte) : Val := b ++ lowByte v

/-- `n` bytes of a value, least significant first (R67). -/
def leBytes {w : Nat} (v : BitVec w) : Nat → List Byte
  | 0 => []
  | n + 1 => v.extractLsb' 0 8 :: leBytes (v >>> 8) n

/-- The six control registers (R35). -/
inductive CtrlReg where
  | addr | maxlen | rctype | mfwin | err | stat
  deriving DecidableEq, Repr

/-- The register a number names; 6 to 15 are reserved (R35, R42). -/
def ctrlReg (n : BitVec 4) : Option CtrlReg :=
  match n.toNat with
  | 0 => some .addr
  | 1 => some .maxlen
  | 2 => some .rctype
  | 3 => some .mfwin
  | 4 => some .err
  | 5 => some .stat
  | _ => none

/-- The 3-bit encoding of MSP_ST (R28). -/
def MspState.code : MspState → BitVec 3
  | .seekHeader => 0#3
  | .readLength => 1#3
  | .readCommand => 2#3
  | .readPayload => 3#3
  | .readChecksum => 4#3
  | .done => 5#3

/-- The largest age, `2^AGE_W - 1` (R203). -/
def maxAge (p : Config.Params) : Nat := 2 ^ p.ageW - 1

/-- The age counter has stopped at its largest value (R41 AGESAT, R203). -/
def ageSaturated (s : State) : Bool := s.age == maxAge s.params

/-- CR.STAT, `0, AGESAT, SEEN, HDR[1:0], MSP_ST[2:0]` from bit 7 down, computed at the read (R41). -/
def statByte (s : State) : Byte :=
  0#1 ++ BitVec.ofBool (ageSaturated s) ++ BitVec.ofBool s.seen ++ s.hdr ++ s.mspSt.code

/-- The value a control register reads as (R36 to R41). -/
def readCtrl (s : State) : CtrlReg → Byte
  | .addr => s.crAddr
  | .maxlen => s.crMaxlen
  | .rctype => s.crRctype
  | .mfwin => s.crMfwin
  | .err => s.crErr
  | .stat => statByte s

/-- A legal window size, 1 to `MF_WMAX` (R39). -/
def legalWindow (p : Config.Params) (v : Byte) : Bool := 1 ≤ v.toNat && v.toNat ≤ p.mfWMax

/-- Write a control register (R207): none where the write fails with OutOfRange. -/
def writeCtrl (r : CtrlReg) (v : Byte) (s : State) : Option State :=
  match r with
  | .addr => some { s with crAddr := v }
  | .maxlen => some { s with crMaxlen := v }
  | .rctype => some { s with crRctype := v }
  | .mfwin => if legalWindow s.params v then some { s with crMfwin := v, win := Vector.replicate 16 [] } else none
  | .err => some (clearFlags v s)
  | .stat => none

end Sys2Proof.Machine
end

