-- ==== Sys2Proof/Machine/MedianFilter.lean ====
section
/-! DEFINITION. The median filter (spec/45_median_filter.md R190 to R195): `mf_update`, `median` and MF_UPD. -/

namespace Sys2Proof.Machine

/-- Insert a value into a non-decreasing sequence. -/
def insertSorted (v : Val) : List Val → List Val
  | [] => [v]
  | x :: xs => if v ≤ x then v :: x :: xs else x :: insertSorted v xs

/-- A sequence in non-decreasing order as unsigned numbers (R192). -/
def sortVals : List Val → List Val
  | [] => []
  | x :: xs => insertSorted x (sortVals xs)

/-- `median(x)` (R192): the middle value, or the average of the two middle values rounded down. It is asked only of
windows that hold a value (log 10). -/
def median (x : List Val) : Val :=
  let s := sortVals x
  let n := x.length
  if n % 2 = 1 then s.getD ((n - 1) / 2) 0
  else BitVec.ofNat 16 (((s.getD (n / 2 - 1) 0).toNat + (s.getD (n / 2) 0).toNat) / 2)

/-- The window after a push: the oldest value is evicted from a full window (R191). -/
def pushWindow (w : Nat) (win : List Val) (v : Val) : List Val :=
  (if win.length = w then win.drop 1 else win) ++ [v]

/-- The value returned for input `v` with the window as it stands after the push (R191). -/
def filterValue (w : Nat) (win : List Val) (v : Val) : Val := if win.length < w then v else median win

/-- `mf_update(k, v)`: the block after it, and the value returned (R191). -/
def mfUpdate (k : Fin 16) (v : Val) (s : State) : State × Val :=
  let win := pushWindow s.crMfwin.toNat s.win[k] v
  ({ s with win := s.win.set k win }, filterValue s.crMfwin.toNat win v)

/-- MF_UPD (R193): CH and OPR are not written. -/
def execMfUpd (minor : BitVec 4) (s : State) : Host.Outcome State Fault Refusal :=
  let r := mfUpdate (channelOfMinor minor) s.opr s
  .next (emit (.val16 r.2) r.1)

end Sys2Proof.Machine
end

