-- ==== Sys2Proof/Machine/ChannelDecoder.lean ====
section
/-! DEFINITION. The 11-bit channel unpacker and the microsecond map (spec/44_channel_decoder.md R170 to R175), the RC
stage of CRSF_PUSH (R176), and DEC_OPEN, DEC_BYTE, DEC_CLOSE (R177 to R179). -/

namespace Sys2Proof.Machine

/-- The accumulator procedure of R171 from accumulator `acc` with `n` valid bits: new bytes enter above the bits held,
and a value leaves once 11 bits are there. At most one value leaves per byte (R171), so the loop is one test. -/
def unpackFrom (acc : BitVec 18) (n : Nat) : List Byte → List Raw
  | [] => []
  | b :: bs =>
    let acc := acc ||| (b.zeroExtend 18 <<< n)
    if 11 ≤ n + 8 then acc.extractLsb' 0 11 :: unpackFrom (acc >>> 11) (n + 8 - 11) bs
    else unpackFrom acc (n + 8) bs

/-- `unpack11(p)` (R171). -/
def unpack11 (p : List Byte) : List Raw := unpackFrom 0#18 0 p

/-- A byte sequence as a little-endian number (R66, R172). -/
def leNumber : List Byte → Nat
  | [] => 0
  | b :: bs => b.toNat + 256 * leNumber bs

/-- The closed form of R172: field `i` (channel `i + 1`) of the payload read as a little-endian number. -/
def unpackField (p : List Byte) (i : Nat) : Raw := BitVec.ofNat 11 (leNumber p / 2 ^ (11 * i))

/-- `map_us(r)`, with no clamping (R173). -/
def mapUs (r : Raw) : Val := BitVec.ofNat 16 (Config.usBase + r.toNat * Config.usNum / Config.usDen)

/-- `decode(p)` for a payload of exactly 22 bytes (R174). -/
def decodeChannels (p : List Byte) : Vector Val 16 :=
  let r := unpack11 p
  Vector.ofFn fun k => mapUs (r.getD k.val 0)

/-- The 16 windows after each has taken its channel's value (R176, R191). -/
def pushAll (w : Nat) (win : Vector (List Val) 16) (us : Vector Val 16) : Vector (List Val) 16 :=
  Vector.ofFn fun k : Fin 16 => pushWindow w win[k] us[k]

/-- The 16 filters' return values, from the windows as they stand after the push (R176, R191). -/
def filterAll (w : Nat) (win : Vector (List Val) 16) (us : Vector Val 16) : Vector Val 16 :=
  Vector.ofFn fun k : Fin 16 => filterValue w win[k] us[k]

/-- The 16 filters take the 16 decoded values and each filter's return value becomes the channel register (R176). The
channels are independent, so the order of the updates does not matter (R176, R195 f). -/
def applyFilters (us : Vector Val 16) (s : State) : State :=
  { s with
    win := pushAll s.crMfwin.toNat s.win us
    ch := filterAll s.crMfwin.toNat (pushAll s.crMfwin.toNat s.win us) us }

/-- `rc_stage(q)` (R176). -/
def rcStage (q : List Byte) (s : State) : State :=
  if q.length = Config.rcPayload then
    let s' := applyFilters (decodeChannels q) s
    emit (.chan s'.ch) s'
  else raise .invalidPayloadLength s

/-- DEC_OPEN (R177). -/
def execDecOpen (s : State) : Host.Outcome State Fault Refusal := .next { s with dn := 0#5, dOvf := false }

/-- DEC_BYTE (R178). -/
def execDecByte (imm : Byte) (s : State) : Host.Outcome State Fault Refusal :=
  if s.dn < 22#5 then .next { s with dbuf := memWrite s.dbuf s.dn.toNat imm, dn := s.dn + 1 }
  else .next { s with dOvf := true }

/-- The staging counters after DEC_CLOSE (R179). -/
def decRelease (s : State) : State := { s with dn := 0#5, dOvf := false }

/-- DEC_CLOSE (R179). -/
def execDecClose (s : State) : Host.Outcome State Fault Refusal :=
  if s.dn = 22#5 ∧ s.dOvf = false then
    match loadBytes .dbuf s.dbuf Config.rcPayload with
    | .error f => .fault f
    | .ok payload => .next (decRelease (emit (.dec (decodeChannels payload)) s))
  else .next (decRelease (raise .invalidPayloadLength s))

end Sys2Proof.Machine
end

