-- ==== Sys2Proof/Machine/Checksum.lean ====
section
/-! DEFINITION. The MSP XOR checksum (spec/40_checksum_xor.md R110 to R116). There is one checksum and no mode that
selects a sum (R116). -/

namespace Sys2Proof.Machine

/-- `xor_fold(s)`, the exclusive-or of all bytes of `s` (R110). -/
def xorFold (s : List Byte) : Byte := s.foldl (· ^^^ ·) 0x00#8

/-- The checksum of a frame with that length byte, command byte and payload (R110). -/
def mspChecksum (length command : Byte) (payload : List Byte) : Byte := xorFold (length :: command :: payload)

/-- `validate` of R111. -/
def mspValidate (length command : Byte) (payload : List Byte) (received : Byte) : Bool :=
  received == mspChecksum length command payload

/-- XOR_INIT (R112). -/
def execXorInit (s : State) : Host.Outcome State Fault Refusal := .next { s with xora := 0x00#8 }

/-- XOR_UPD (R113). -/
def execXorUpd (imm : Byte) (s : State) : Host.Outcome State Fault Refusal := .next { s with xora := s.xora ^^^ imm }

/-- XOR_RD (R114). -/
def execXorRd (s : State) : Host.Outcome State Fault Refusal := .next (emit (.val8 s.xora) s)

/-- XOR_CHK (R115): a mismatch sets no flag. -/
def execXorChk (imm : Byte) (s : State) : Host.Outcome State Fault Refusal :=
  .next (emit (.val8 (if s.xora = imm then 0x01#8 else 0x00#8)) s)

end Sys2Proof.Machine
end

