-- ==== Sys2Proof/Machine/CrsfParser.lean ====
section
/-! DEFINITION. The CRSF frame synchronizer and validator (spec/43_crsf_parser.md R150 to R163): the search
`process()` and CRSF_PUSH. The search takes the CRC table as an argument; the block runs it with `crcRom`. -/

namespace Sys2Proof.Machine

/-- A valid length byte: not below 2, not above CR.MAXLEN (R154). The comparison is of the byte itself (R37). -/
def validLength (s : State) (l : Byte) : Bool := 2 ≤ l.toNat && l.toNat ≤ s.crMaxlen.toNat

/-- Dispatch by type (R158): the payload `F[3..L]` of a frame of type CR.RCTYPE goes to the RC stage. -/
def dispatchFrame (f : List Byte) (l : Nat) (s : State) : State :=
  if f.getD 2 0 = s.crRctype then rcStage (slice f 3 l) s else s

/-- Accepting the frame at the front of CBUF, with length byte `l` (R157): remove it, emit EV_FRAME, the age starts
again, then the type is looked at. -/
def acceptFrame (l : Nat) (s : State) : State :=
  let f := slice s.cbuf 0 (l + 1)
  let s' := emit (.frame f) { s with cbuf := s.cbuf.drop (l + 2) }
  dispatchFrame f l { s' with age := 0, seen := true }

/-- Drop the oldest byte of CBUF and set a flag (R152, "drop 1"). -/
def dropOne (f : ErrFlag) (s : State) : State := setFlag f { s with cbuf := s.cbuf.drop 1 }

/-- One round of `process()`, steps (a) to (e) in order (R152 to R157): none where the search returns. -/
def searchRound (rom : Byte → Byte) (s : State) : Option State :=
  match s.cbuf with
  | a :: l :: _ =>
    if a ≠ s.crAddr then some (dropOne .crsfDesync s)
    else if validLength s l = false then some (dropOne .crsfLeninv s)
    else if s.cbuf.length < l.toNat + 2 then none
    else if crc8With rom (slice s.cbuf 2 l.toNat) ≠ s.cbuf.getD (l.toNat + 1) 0 then
      some (dropOne .crsfCrcerr s)
    else some (acceptFrame l.toNat s)
  | _ => none

/-- At most `fuel` rounds of the search (R152). -/
def searchLoop (rom : Byte → Byte) : Nat → State → State
  | 0, s => s
  | fuel + 1, s =>
    match searchRound rom s with
    | none => s
    | some s' => searchLoop rom fuel s'

/-- `process()` (R152). Every round that does not return removes a byte (R159), so as many rounds as CBUF has bytes are
enough and the bound never cuts the search short. -/
def processCrsf (rom : Byte → Byte) (s : State) : State := searchLoop rom s.cbuf.length s

/-- `append(bytes)` and then `process()`, the document's two calls (R150, R160). -/
def feedCrsf (rom : Byte → Byte) (bytes : List Byte) (s : State) : State :=
  processCrsf rom { s with cbuf := s.cbuf ++ bytes }

/-- CRSF_PUSH (R151). The append lies inside CBUF's 257 bytes (R161; log 9). -/
def execCrsfPush (imm : Byte) (s : State) : Host.Outcome State Fault Refusal :=
  match checkRoom .cbuf s.cbuf.length with
  | .error f => .fault f
  | .ok () => .next (feedCrsf crcRom [imm] s)

end Sys2Proof.Machine
end

