-- ==== Sys2Proof/Machine/MspFramer.lean ====
section
/-! DEFINITION. The MSP frame synchronizer, validator and request encoder (spec/41_msp_framer.md R120 to R135):
MSP_PUSH, MSP_ABORT, ENC_OPEN, ENC_BYTE, ENC_CLOSE. -/

namespace Sys2Proof.Machine

/-! ## Receive side -/

/-- SeekHeader (R123). -/
def mspSeek (b : Byte) (s : State) : State :=
  if s.hdr = 0#2 ∧ b = Config.mspDollar then { s with hdr := 1#2 }
  else if s.hdr = 1#2 ∧ b = Config.mspM then { s with hdr := 2#2 }
  else if s.hdr = 2#2 ∧ b = Config.mspResponse then { s with hdr := 0#2, mspSt := .readLength }
  else setFlag .mspDesync { s with hdr := if b = Config.mspDollar then 1#2 else 0#2 }

/-- ReadLength (R124). -/
def mspReadLength (b : Byte) (s : State) : State := { s with mspLen := b, mspCk := b, mspSt := .readCommand }

/-- ReadCommand (R125): with length 0 the payload state is skipped. -/
def mspReadCommand (b : Byte) (s : State) : State :=
  { s with
    mspCmd := b
    mspCk := s.mspCk ^^^ b
    mspCnt := 0#8
    mspSt := if s.mspLen = 0#8 then .readChecksum else .readPayload }

/-- ReadPayload (R126): the comparison uses the incremented count. -/
def mspReadPayload (b : Byte) (s : State) : Host.Outcome State Fault Refusal :=
  match checkRoom .mspPay s.mspCnt.toNat with
  | .error f => .fault f
  | .ok () =>
    .next { s with
      mspPay := memWrite s.mspPay s.mspCnt.toNat b
      mspCk := s.mspCk ^^^ b
      mspCnt := s.mspCnt + 1
      mspSt := if s.mspCnt + 1 = s.mspLen then .readChecksum else .readPayload }

/-- Done (R128): emit EV_MSP and re-arm, in the same operation. -/
def mspDone (s : State) : Host.Outcome State Fault Refusal :=
  match loadBytes .mspPay s.mspPay s.mspLen.toNat with
  | .error f => .fault f
  | .ok payload =>
    .next { emit (.msp Config.mspResponse s.mspLen s.mspCmd payload) s with mspSt := .seekHeader, hdr := 0#2 }

/-- ReadChecksum (R127). -/
def mspReadChecksum (b : Byte) (s : State) : Host.Outcome State Fault Refusal :=
  if b = s.mspCk then mspDone { s with mspSt := .done }
  else .next (setFlag .mspCkerr { s with mspSt := .seekHeader, hdr := 0#2 })

/-- MSP_PUSH (R122): exactly one state's rule runs. Done does not stand between operations (log 4). -/
def execMspPush (imm : Byte) (s : State) : Host.Outcome State Fault Refusal :=
  match s.mspSt with
  | .seekHeader => .next (mspSeek imm s)
  | .readLength => .next (mspReadLength imm s)
  | .readCommand => .next (mspReadCommand imm s)
  | .readPayload => mspReadPayload imm s
  | .readChecksum => mspReadChecksum imm s
  | .done => .fault .mspDoneStored

/-- The decoder back at SeekHeader with no partial frame (R130). -/
def mspDropFrame (s : State) : State :=
  { s with mspSt := .seekHeader, hdr := 0#2, mspLen := 0#8, mspCmd := 0#8, mspCnt := 0#8, mspCk := 0#8 }

/-- MSP_ABORT (R130). -/
def execMspAbort (s : State) : Host.Outcome State Fault Refusal :=
  .next (mspDropFrame (if s.mspSt = .seekHeader then s else setFlag .trunc s))

/-! ## Transmit side -/

/-- `msp_encode(c, p)` (R134), for `|p|` at most 255. -/
def mspEncode (c : Byte) (p : List Byte) : List Byte :=
  let n := BitVec.ofNat 8 p.length
  [Config.mspDollar, Config.mspM, Config.mspRequest, n, c] ++ p ++ [mspChecksum n c p]

/-- The response form of an encoded request: its third byte `<` becomes `>` (R135). -/
def asResponse (frame : List Byte) : List Byte := frame.set 2 Config.mspResponse

/-- ENC_OPEN (R131). -/
def execEncOpen (imm : Byte) (s : State) : Host.Outcome State Fault Refusal :=
  .next { s with txCmd := imm, txN := 0#8, txOvf := false }

/-- ENC_BYTE (R132). -/
def execEncByte (imm : Byte) (s : State) : Host.Outcome State Fault Refusal :=
  if s.txN < 255#8 then .next { s with txb := memWrite s.txb s.txN.toNat imm, txN := s.txN + 1 }
  else .next { s with txOvf := true }

/-- The staging counters after ENC_CLOSE; TXCMD is kept (R133). -/
def encRelease (s : State) : State := { s with txN := 0#8, txOvf := false }

/-- ENC_CLOSE (R133). -/
def execEncClose (s : State) : Host.Outcome State Fault Refusal :=
  if s.txOvf then .next (encRelease (raise .payloadTooLarge s))
  else
    match loadBytes .txb s.txb s.txN.toNat with
    | .error f => .fault f
    | .ok payload => .next (encRelease (emit (.tx (mspEncode s.txCmd payload)) s))

end Sys2Proof.Machine
end

