-- ==== Sys2Proof/Machine/Session.lean ====
section
/-! DEFINITION. Session and system operations (spec/46_session_system_ops.md R200 to R208): NOP, SRST, TICK, GETAGE,
GETCH, OPLO, OPHI, WRCR, RDCR. -/

namespace Sys2Proof.Machine

/-- A soft reset: R46's table for every element of the block; parameters and ports are left alone (R201, R241). -/
def softReset (s : State) : State := { s with toBlock := Block.reset s.params }

/-- AGE after one TICK: plus one, stopping at `2^AGE_W - 1` (R203). -/
def ageAfterTick (p : Config.Params) (a : Nat) : Nat := if a < maxAge p then a + 1 else a

/-- NOP (R200). -/
def execNop (s : State) : Host.Outcome State Fault Refusal := .next s

/-- SRST (R201). -/
def execSrst (s : State) : Host.Outcome State Fault Refusal := .next (softReset s)

/-- TICK (R203). -/
def execTick (s : State) : Host.Outcome State Fault Refusal := .next { s with age := ageAfterTick s.params s.age }

/-- GETAGE (R204). -/
def execGetage (s : State) : Host.Outcome State Fault Refusal := .next (emit (.age s.age) s)

/-- GETCH (R202). -/
def execGetch (imm : Byte) (s : State) : Host.Outcome State Fault Refusal :=
  match channelOfImm imm with
  | some k => .next (emit (.val16 s.ch[k]) s)
  | none => .next (raise .outOfRange s)

/-- OPLO (R205). -/
def execOplo (imm : Byte) (s : State) : Host.Outcome State Fault Refusal :=
  .next { s with opr := withLowByte s.opr imm }

/-- OPHI (R206). -/
def execOphi (imm : Byte) (s : State) : Host.Outcome State Fault Refusal :=
  .next { s with opr := withHighByte s.opr imm }

/-- WRCR (R207): the register number is looked at first, the value only for MFWIN (R224). -/
def execWrcr (minor : BitVec 4) (imm : Byte) (s : State) : Host.Outcome State Fault Refusal :=
  match ctrlReg minor with
  | some r =>
    match writeCtrl r imm s with
    | some s' => .next s'
    | none => .next (raise .outOfRange s)
  | none => .next (raise .outOfRange s)

/-- RDCR (R208). -/
def execRdcr (minor : BitVec 4) (s : State) : Host.Outcome State Fault Refusal :=
  match ctrlReg minor with
  | some r => .next (emit (.val8 (readCtrl s r)) s)
  | none => .next (raise .outOfRange s)

end Sys2Proof.Machine
end

