-- ==== Sys2Proof/Machine/Dispatch.lean ====
section
/-! DEFINITION. Every operation and its meaning, one arm each (spec/30_encoding.md R84). -/

namespace Sys2Proof.Machine

def exec (i : Instr) (s : State) : Host.Outcome State Fault Refusal :=
  match i with
  | .nop => Sys2Proof.Machine.execNop s
  | .srst => Sys2Proof.Machine.execSrst s
  | .tick => Sys2Proof.Machine.execTick s
  | .getage => Sys2Proof.Machine.execGetage s
  | .getch imm => Sys2Proof.Machine.execGetch imm s
  | .oplo imm => Sys2Proof.Machine.execOplo imm s
  | .ophi imm => Sys2Proof.Machine.execOphi imm s
  | .wrcr minor imm => Sys2Proof.Machine.execWrcr minor imm s
  | .rdcr minor => Sys2Proof.Machine.execRdcr minor s
  | .xorInit => Sys2Proof.Machine.execXorInit s
  | .xorUpd imm => Sys2Proof.Machine.execXorUpd imm s
  | .xorRd => Sys2Proof.Machine.execXorRd s
  | .xorChk imm => Sys2Proof.Machine.execXorChk imm s
  | .mspPush imm => Sys2Proof.Machine.execMspPush imm s
  | .mspAbort => Sys2Proof.Machine.execMspAbort s
  | .encOpen imm => Sys2Proof.Machine.execEncOpen imm s
  | .encByte imm => Sys2Proof.Machine.execEncByte imm s
  | .encClose => Sys2Proof.Machine.execEncClose s
  | .crcInit => Sys2Proof.Machine.execCrcInit s
  | .crcUpd imm => Sys2Proof.Machine.execCrcUpd imm s
  | .crcRd => Sys2Proof.Machine.execCrcRd s
  | .crsfPush imm => Sys2Proof.Machine.execCrsfPush imm s
  | .decOpen => Sys2Proof.Machine.execDecOpen s
  | .decByte imm => Sys2Proof.Machine.execDecByte imm s
  | .decClose => Sys2Proof.Machine.execDecClose s
  | .mfUpd minor => Sys2Proof.Machine.execMfUpd minor s

end Sys2Proof.Machine
end

