-- ==== Sys2Proof/Machine/Step.lean ====
section
/-! DEFINITION. One step: take the next command word, decode it, perform it (spec/30_encoding.md R80). -/

namespace Sys2Proof.Machine

/-- One step of the block. With no word waiting it keeps its state (R234); an illegal word raises IllegalOp (R85);
every other word is exactly one operation. -/
def step (s : State) : Host.Outcome State Fault Refusal :=
  match fetch s with
  | none => idle s
  | some (w, s') =>
    match decode w with
    | .ok i => exec i s'
    | .error _ => takeIllegal s'

/-- The host issues the command word of that table row, to be taken next (log 1). The word is bits 0 to 15 of `w`, bits
above `nbits` counted as 0, as in `decodeTableWord` (log 11). -/
def State.withFetchWord (s : State) (nbits w : Nat) : State := issueNext (BitVec.ofNat 16 (w % 2 ^ nbits)) s

end Sys2Proof.Machine
end

