-- ==== Sys2Proof/Machine/EventPort.lean ====
section
/-! DEFINITION. The bytes of the event port (spec/30_encoding.md R100 to R109): how each event is serialised, and how a
reader of the stream finds where an event ends. -/

namespace Sys2Proof.Machine

/-- The tag byte of an event (R100). -/
def Event.tag : Event → Byte
  | .frame _ => 0x01#8
  | .chan _ => 0x02#8
  | .msp _ _ _ _ => 0x03#8
  | .tx _ => 0x04#8
  | .val8 _ => 0x05#8
  | .val16 _ => 0x06#8
  | .dec _ => 0x07#8
  | .age _ => 0x08#8
  | .err _ => 0x0F#8

/-- The bytes after the tag (R100 to R109); EV_AGE has `AGE_W / 8` of them (R108). -/
def Event.body (p : Config.Params) : Event → List Byte
  | .frame bytes => bytes
  | .chan values => values.toList.flatMap fun v => leBytes v 2
  | .msp direction length command payload => direction :: length :: command :: payload
  | .tx bytes => bytes
  | .val8 value => [value]
  | .val16 value => leBytes value 2
  | .dec values => values.toList.flatMap fun v => leBytes v 2
  | .age value => leBytes (BitVec.ofNat p.ageW value) (p.ageW / 8)
  | .err code => [code.code]

/-- An event as it leaves the port: tag, then body (R100). -/
def Event.bytes (p : Config.Params) (e : Event) : List Byte := e.tag :: e.body p

/-- An EV_FRAME (R101). -/
def Event.isFrame : Event → Bool
  | .frame _ => true
  | .chan _ | .msp _ _ _ _ | .tx _ | .val8 _ | .val16 _ | .dec _ | .age _ | .err _ => false

/-- The whole output as bytes, in order of emission (R70, R100). -/
def State.eventBytes (s : State) : List Byte := s.events.flatMap (Event.bytes s.params)

/-- How many bytes the event at the front of a stream has, from its tag and, for EV_FRAME, EV_MSP and EV_TX, from the
length byte at its fixed offset (R100, R101, R103, R104); none for a tag that is never sent. -/
def eventSize (p : Config.Params) : List Byte → Option Nat
  | [] => none
  | tag :: rest =>
    match tag.toNat with
    | 0x01 => some (1 + ((rest.getD 1 0).toNat + 2))
    | 0x02 => some 33
    | 0x03 => some (1 + (3 + (rest.getD 1 0).toNat))
    | 0x04 => some (1 + (6 + (rest.getD 3 0).toNat))
    | 0x05 => some 2
    | 0x06 => some 3
    | 0x07 => some 33
    | 0x08 => some (1 + p.ageW / 8)
    | 0x0F => some 2
    | _ => none

/-- Cut a stream into its events, at most `fuel` of them; none where it does not end with an event. -/
def splitEvents (p : Config.Params) : Nat → List Byte → Option (List (List Byte))
  | _, [] => some []
  | 0, _ :: _ => none
  | fuel + 1, b :: bs =>
    match eventSize p (b :: bs) with
    | none => none
    | some n =>
      if (b :: bs).length < n then none
      else (splitEvents p fuel ((b :: bs).drop n)).map ((b :: bs).take n :: ·)

end Sys2Proof.Machine
end

