-- ==== Sys2Proof/Machine/Pseudo.lean ====
section
/-! DEFINITION. Sequences of operations, the pseudo-operations of spec/30_encoding.md R89, and the assembler's spelling of
an operation (R88). -/

namespace Sys2Proof.Machine

/-- A sequence of operations, each performed completely before the next (spec/20_memory.md R69). -/
def execAll : List Instr → State → Host.Outcome State Fault Refusal
  | [], s => .next s
  | i :: is, s =>
    match exec i s with
    | .next s' => execAll is s'
    | .fault f => .fault f
    | .refused r => .refused r

/-- `CRSF_SEND` (R89). -/
def crsfSend (bytes : List Byte) : List Instr := bytes.map .crsfPush

/-- `MSP_SEND` (R89). -/
def mspSend (bytes : List Byte) : List Instr := bytes.map .mspPush

/-- `XORSUM` (R89). -/
def xorSum (bytes : List Byte) : List Instr := .xorInit :: bytes.map .xorUpd ++ [.xorRd]

/-- `XORVAL` (R89). -/
def xorVal (received : Byte) (bytes : List Byte) : List Instr := .xorInit :: bytes.map .xorUpd ++ [.xorChk received]

/-- `CRC8` (R89). -/
def crcSum (bytes : List Byte) : List Instr := .crcInit :: bytes.map .crcUpd ++ [.crcRd]

/-- `MSP_REQ` (R89). -/
def mspReq (command : Byte) (payload : List Byte) : List Instr :=
  .encOpen command :: payload.map .encByte ++ [.encClose]

/-- `DECODE` (R89). -/
def decodeOps (payload : List Byte) : List Instr := .decOpen :: payload.map .decByte ++ [.decClose]

/-- `LDOP` (R89). -/
def loadOpr (v : Val) : List Instr := [.oplo (lowByte v), .ophi (highByte v)]

/-- `FILTER k, v` with `minor` = `k - 1` (R89). -/
def filterOps (minor : BitVec 4) (v : Val) : List Instr := loadOpr v ++ [.mfUpd minor]

/-- `CLRERR`, `WRCR ERR, 0xFF` (R89). -/
def clearErr : List Instr := [.wrcr 4#4 0xFF#8]

/-- The name of a control register, or its number (R88). -/
def ctrlRegName (n : BitVec 4) : String :=
  match ctrlReg n with
  | some .addr => "ADDR"
  | some .maxlen => "MAXLEN"
  | some .rctype => "RCTYPE"
  | some .mfwin => "MFWIN"
  | some .err => "ERR"
  | some .stat => "STAT"
  | none => toString n.toNat

/-- The operands of an operation as the assembler writes them: MF_UPD takes the channel number, counted from 1 (R88). -/
def asmOperands : Instr → List String
  | .getch imm | .oplo imm | .ophi imm | .xorUpd imm | .xorChk imm | .mspPush imm | .encOpen imm
  | .encByte imm | .crcUpd imm | .crsfPush imm | .decByte imm => [toString imm.toNat]
  | .wrcr minor imm => [ctrlRegName minor, toString imm.toNat]
  | .rdcr minor => [ctrlRegName minor]
  | .mfUpd minor => [toString (minor.toNat + 1)]
  | .nop | .srst | .tick | .getage | .xorInit | .xorRd | .mspAbort | .encClose | .crcInit | .crcRd
  | .decOpen | .decClose => []

/-- The line of assembler text of an operation: mnemonic, then operands separated by commas (R88). -/
def asmLine (i : Instr) : String :=
  match asmOperands i with
  | [] => i.mnemonic
  | ops => i.mnemonic ++ " " ++ String.intercalate ", " ops

end Sys2Proof.Machine
end

