-- ==== Sys2Proof/Safety.lean ====
section
/-! DEFINITION. What holds between two operations (spec/10_state.md R47 and the rules it names), and what a safe step
is. Each part stands under its own name, so that a claim can rest on the part it needs. -/

namespace Sys2Proof.Machine

/-- The MSP receiver between operations: Done is never stored (R128); HDR is at most 2, and 0 outside SeekHeader (R28,
R47); the payload count is below the length in ReadPayload and equal to it in ReadChecksum (R126, R47); the payload
bytes counted are written, and MSP_CK is the XOR of length, command and those bytes (R29, R127). -/
structure MspInv (s : State) : Prop where
  notDone : s.mspSt ≠ .done
  hdrRange : s.hdr.toNat ≤ 2
  hdrZero : s.mspSt ≠ .seekHeader → s.hdr = 0#2
  ckLength : s.mspSt = .readCommand → s.mspCk = s.mspLen
  countBelow : s.mspSt = .readPayload → s.mspCnt.toNat < s.mspLen.toNat
  countFull : s.mspSt = .readChecksum → s.mspCnt = s.mspLen
  payload : s.mspSt = .readPayload ∨ s.mspSt = .readChecksum →
    ∃ p, memPrefix s.mspPay s.mspCnt.toNat = some p ∧ s.mspCk = mspChecksum s.mspLen s.mspCmd p

/-- The byte stores are canonical and hold nothing outside their size (R60; log 3). -/
structure StoreInv (s : State) : Prop where
  mspPayWf : s.mspPay.wf
  txbWf : s.txb.wf
  dbufWf : s.dbuf.wf
  mspPayWithin : s.mspPay.within Space.mspPay.size
  txbWithin : s.txb.within Space.txb.size
  dbufWithin : s.dbuf.within Space.dbuf.size

/-- The staging buffers: the bytes counted are written (R31, R32), DN is at most 22 (R47), and an overflow mark stands
only beside a full count (R132, R178). -/
structure StagingInv (s : State) : Prop where
  txWritten : (memPrefix s.txb s.txN.toNat).isSome
  txFull : s.txOvf = true → s.txN = 255#8
  dnRange : s.dn.toNat ≤ 22
  decWritten : (memPrefix s.dbuf s.dn.toNat).isSome
  decFull : s.dOvf = true → s.dn = 22#5

/-- CR.MFWIN is a legal window size and no window is longer (R39, R47, R191). -/
structure WindowInv (s : State) : Prop where
  mfwin : legalWindow s.params s.crMfwin = true
  windows : ∀ k : Fin 16, s.win[k].length ≤ s.crMfwin.toNat

/-- CBUF between operations: fewer than two bytes, or a candidate that is not complete (R47, R161). -/
def CbufInv (s : State) : Prop := s.cbuf.length < 2 ∨ s.cbuf.length < (s.cbuf.getD 1 0).toNat + 2

/-- An event has the shape its rule gives: an EV_FRAME body is `L + 2` bytes with `L` its second byte and at least 2
(R101), an EV_MSP has the response direction and a payload as long as its length byte says (R103), an EV_TX body is
`6 + length` bytes that begin with the request header, `length` its fourth byte (R104), and an EV_AGE value fits AGE_W
bits (R108). -/
def Event.Wf (p : Config.Params) : Event → Prop
  | .frame bytes => bytes.length = (bytes.getD 1 0).toNat + 2 ∧ 2 ≤ (bytes.getD 1 0).toNat
  | .msp direction length _ payload => direction = Config.mspResponse ∧ payload.length = length.toNat
  | .tx bytes => bytes.length = (bytes.getD 3 0).toNat + 6 ∧
      bytes.take 3 = [Config.mspDollar, Config.mspM, Config.mspRequest]
  | .age value => value < 2 ^ p.ageW
  | .chan _ | .val8 _ | .val16 _ | .dec _ | .err _ => True

/-- Every event emitted so far has its shape. -/
def EventsInv (s : State) : Prop := ∀ e ∈ s.events, e.Wf s.params

/-- AGE fits its AGE_W bits (R34, R203). -/
def AgeInv (s : State) : Prop := s.age < 2 ^ s.params.ageW

/-- All that holds after reset and after every operation of a block with legal parameters (R47, R6). -/
structure BlockInv (s : State) : Prop where
  params : s.params.Legal
  msp : MspInv s
  store : StoreInv s
  staging : StagingInv s
  window : WindowInv s
  cbuf : CbufInv s
  age : AgeInv s
  events : EventsInv s

/-- A value of the decoder's range, 988 to 2044 (R175). -/
def InRange (v : Val) : Prop := 988 ≤ v.toNat ∧ v.toNat ≤ 2044

/-- Every channel register and every window entry lies in the decoder's range (R25, R47, R175). -/
structure RangeInv (s : State) : Prop where
  ch : ∀ k : Fin 16, InRange s.ch[k]
  win : ∀ k : Fin 16, ∀ v ∈ s.win[k], InRange v

/-- Every element has the value of R46's table, written out, with ADDR_RST, MAXLEN_RST and RCTYPE_RST those of the block;
the byte stores, whose contents R46 leaves unspecified, and the two ports are not spoken of. -/
structure HasResetValues (s : State) : Prop where
  opr : s.opr = 0x0000#16
  xora : s.xora = 0x00#8
  crca : s.crca = 0x00#8
  ch : ∀ k : Fin 16, s.ch[k] = 1500#16
  win : ∀ k : Fin 16, s.win[k] = []
  mspSt : s.mspSt = .seekHeader
  hdr : s.hdr = 0#2
  mspLen : s.mspLen = 0#8
  mspCmd : s.mspCmd = 0#8
  mspCnt : s.mspCnt = 0#8
  mspCk : s.mspCk = 0#8
  txCmd : s.txCmd = 0x00#8
  txN : s.txN = 0#8
  txOvf : s.txOvf = false
  dn : s.dn = 0#5
  dOvf : s.dOvf = false
  cbuf : s.cbuf = []
  age : s.age = 0
  seen : s.seen = false
  crAddr : s.crAddr = s.params.addrRst
  crMaxlen : s.crMaxlen = s.params.maxlenRst
  crRctype : s.crRctype = s.params.rctypeRst
  crMfwin : s.crMfwin = 3#8
  crErr : s.crErr = 0x00#8
  crStat : readCtrl s .stat = 0x00#8

/-- The length byte `l` is valid under the state's CR.MAXLEN, and `body` (type and payload) has the `l - 1` bytes it
says (R91, R154). -/
structure ValidFrame (s : State) (l : Byte) (body : List Byte) : Prop where
  lengthLow : 2 ≤ l.toNat
  lengthHigh : l.toNat ≤ s.crMaxlen.toNat
  bodyLength : body.length + 1 = l.toNat

/-- The bytes on the wire of the frame with that length byte and body: the state's address, length, body, and the CRC of
the body by table `rom` (R91, R156). -/
def frameBytes (rom : Byte → Byte) (s : State) (l : Byte) (body : List Byte) : List Byte :=
  s.crAddr :: l :: (body ++ [crc8With rom body])

/-- A step that goes on: no fault, no refusal (R249). -/
def StepGoesOn (s : State) : Prop := ∃ t, step s = .next t

/-- A run of the block as R5 has it: from the reset state and a finite list of command words to the final state of the
block and the list of events. -/
def runBlock (p : Config.Params) (ws : List CmdWord) : Host.Outcome (Block × List Event) Fault Refusal :=
  match Sys2Proof.core.run ws.length { State.resetWith p with port := ws } with
  | .next (t : State) => .next (t.toBlock, t.events)
  | .fault f => .fault f
  | .refused r => .refused r

/-- The word the block takes next, if one waits. -/
def nextWord (s : State) : Option CmdWord := s.port.head?

end Sys2Proof.Machine
end

