-- ==== Sys2Proof/Certificates/Slice0/Obligations.lean ====
section
/-! DEFINITION. The statements for the provers. Each docstring names the rule of spec/ it formalises; OBLIGATIONS.json
lists them with their quotes. -/

open Sys2Proof Sys2Proof.Machine

/-! ## Encoding -/

/-- R80 to R85: an operation decodes from its own word and from no other, with every operand at every value. -/
def Obligations.DecodeInvertsEncode : Prop :=
  ∀ (w : CmdWord) (i : Instr), decode w = .ok i ↔ w = encode i

/-- R84: the decoder and the opcode map agree on every word, and the rows are disjoint. -/
def Obligations.DecoderFollowsOpcodeMap : Prop :=
  opcodeMap.length = 26 ∧
  (∀ (w : CmdWord) (r r' : OpcodeRow), r ∈ opcodeMap → r' ∈ opcodeMap → r.admits w = true → r'.admits w = true → r = r') ∧
  (∀ (w : CmdWord) (i : Instr), decode w = .ok i → ∃ r ∈ opcodeMap, r.admits w = true ∧ r.mnemonic = i.mnemonic) ∧
  (∀ (w : CmdWord) (r : OpcodeRow), r ∈ opcodeMap → r.admits w = true →
    ∃ i, decode w = .ok i ∧ i.mnemonic = r.mnemonic)

/-- R85: the illegal words are those of its list and those that match no row; each raises IllegalOp, changes nothing
else and the block goes on; WRCR and RDCR with a reserved or read-only number are no illegal words and fail with OutOfRange.
That a step does this with the word the host issues is said in `StepRunsTheDecodedInstruction`. -/
def Obligations.IllegalWordsRaiseIllegalOp : Prop :=
  (∀ w : CmdWord, legalWord w = true ↔ ∃ i, decode w = .ok i) ∧
  (∀ w : CmdWord, legalWord w = true ↔ ∃ r ∈ opcodeMap, r.admits w = true) ∧
  (∀ s : State, takeIllegal s =
    .next { s with events := s.events ++ [.err .illegalOp], crErr := s.crErr ||| 0x40#8 }) ∧
  (∀ p : Config.Params, (Event.err .illegalOp).bytes p = [0x0F#8, 0x04#8]) ∧
  (∀ (n : BitVec 4) (v : Byte), decode (packWord 1 n v) = .ok (.wrcr n v)) ∧
  (∀ n : BitVec 4, decode (packWord 2 n 0) = .ok (.rdcr n)) ∧
  (∀ (n : BitVec 4) (v : Byte) (s : State), 5 ≤ n.toNat → exec (.wrcr n v) s = .next (raise .outOfRange s)) ∧
  (∀ (n : BitVec 4) (s : State), 6 ≤ n.toNat → exec (.rdcr n) s = .next (raise .outOfRange s))

/-- R87: 6956 of the 65 536 words are legal. -/
def Obligations.LegalWordCountIs6956 : Prop :=
  ((List.range 65536).countP fun n => (decodeTableWord 16 n).isSome) = 6956

/-- R84: words written out from the opcode map decode to the operations they stand for. -/
def Obligations.WrittenOutWordsDecode : Prop :=
  decode 0x0000#16 = .ok .nop ∧ decode 0x0410#16 = .ok (.getch 0x10#8) ∧
  decode 0x1305#16 = .ok (.wrcr 3#4 0x05#8) ∧ decode 0x2400#16 = .ok (.rdcr 4#4) ∧
  decode 0x3365#16 = .ok (.xorChk 0x65#8) ∧ decode 0x4100#16 = .ok .mspAbort ∧
  decode 0x5131#16 = .ok (.crcUpd 0x31#8) ∧ decode 0x60C8#16 = .ok (.crsfPush 0xC8#8) ∧
  decode 0x71E0#16 = .ok (.decByte 0xE0#8) ∧ decode 0x8F00#16 = .ok (.mfUpd 15#4)

/-! ## Step -/

/-- R80, R69, R85, R234: a step takes the next word off the command port and performs the operation it decodes to, on the
state with that word gone; an illegal word raises IllegalOp there; with no word waiting the state stays. How words wait is
the model's choice (log 1). -/
def Obligations.StepRunsTheDecodedInstruction : Prop :=
  (∀ (s : State) (w : CmdWord) (rest : List CmdWord) (i : Instr), s.port = w :: rest → decode w = .ok i →
    step s = exec i { s with port := rest }) ∧
  (∀ (s : State) (w : CmdWord) (rest : List CmdWord) (e : IllegalWord), s.port = w :: rest → decode w = .error e →
    step s = takeIllegal { s with port := rest }) ∧
  (∀ (s : State) (n : Nat) (i : Instr), decodeTableWord 16 n = some i → step (s.withFetchWord 16 n) = exec i s) ∧
  (∀ s : State, s.port = [] → step s = .next s)

/-! ## Errors, flags, events -/

/-- R222: what `raise` does, and that every invariant of R47 holds after it. -/
def Obligations.RaiseEmitsErrorAndSetsFlag : Prop :=
  (∀ s : State, raise .invalidPayloadLength s =
    { s with events := s.events ++ [.err .invalidPayloadLength], crErr := s.crErr ||| 0x20#8 }) ∧
  (∀ s : State, raise .payloadTooLarge s =
    { s with events := s.events ++ [.err .payloadTooLarge], crErr := s.crErr ||| 0x20#8 }) ∧
  (∀ s : State, raise .outOfRange s =
    { s with events := s.events ++ [.err .outOfRange], crErr := s.crErr ||| 0x20#8 }) ∧
  (∀ s : State, raise .illegalOp s =
    { s with events := s.events ++ [.err .illegalOp], crErr := s.crErr ||| 0x40#8 }) ∧
  (∀ p : Config.Params,
    (Event.err .invalidPayloadLength).bytes p = [0x0F#8, 0x01#8] ∧
    (Event.err .payloadTooLarge).bytes p = [0x0F#8, 0x02#8] ∧
    (Event.err .outOfRange).bytes p = [0x0F#8, 0x03#8] ∧ (Event.err .illegalOp).bytes p = [0x0F#8, 0x04#8]) ∧
  (∀ (e : ErrorCode) (s : State), BlockInv s → BlockInv (raise e s)) ∧
  (∀ (e : ErrorCode) (s : State), RangeInv s → RangeInv (raise e s))

/-- R40: no step clears a flag of CR.ERR but SRST and a WRCR of register 4. -/
def Obligations.FlagsStayUntilCleared : Prop :=
  ∀ (s t : State) (f : ErrFlag), step s = .next t → s.flag f = true → t.flag f = false →
    nextWord s = some (encode .srst) ∨ ∃ m : Byte, m.getLsbD f.bit = true ∧ nextWord s = some (encode (.wrcr 4#4 m))

/-- R40, R221, R223: which operation can set which flag; DECERR only together with an EV_ERR; no operation sets
ILLOP. -/
def Obligations.FlagsAreSetOnlyByTheirCause : Prop :=
  ∀ (i : Instr) (s t : State) (f : ErrFlag), exec i s = .next t → s.flag f = false → t.flag f = true →
    (f = .crsfDesync ∨ f = .crsfLeninv ∨ f = .crsfCrcerr → ∃ b, i = .crsfPush b) ∧
    (f = .mspDesync ∨ f = .mspCkerr → ∃ b, i = .mspPush b) ∧
    (f = .trunc → i = .mspAbort) ∧
    f ≠ .illop ∧
    (f = .decerr → ∃ e, .err e ∈ t.events.drop s.events.length)

/-- R70, R100, R241: no step takes an event back or puts one in front of an earlier one. -/
def Obligations.EventsAreOnlyAppended : Prop :=
  ∀ s t : State, step s = .next t → ∃ new, t.events = s.events ++ new

/-- R100: the byte stream is self-delimiting: a reader that cuts it by tags and length bytes finds the events again. -/
def Obligations.EventStreamIsSelfDelimiting : Prop :=
  ∀ s : State, EventsInv s → 
    splitEvents s.params s.events.length s.eventBytes = some (s.events.map (Event.bytes s.params))

/-! ## Reset and session operations -/

/-- R201, R46: SRST gives every element its reset value, whatever legal parameters the block is built with, and leaves
events, waiting words and parameters; hardware reset gives the same values, and those of R6's table at its defaults. -/
def Obligations.SoftResetRestoresResetValues : Prop :=
  decode 0x0100#16 = .ok .srst ∧
  (∀ s : State, s.params.Legal → ∃ t, exec .srst s = .next t ∧ HasResetValues t ∧ t.events = s.events ∧
    t.port = s.port ∧ t.params = s.params) ∧
  (∀ p : Config.Params, p.Legal → HasResetValues (State.resetWith p) ∧ (State.resetWith p).params = p ∧
    (State.resetWith p).events = []) ∧
  State.reset = State.resetWith Config.defaults ∧ State.reset.crAddr = 0xC8#8 ∧ State.reset.crMaxlen = 62#8 ∧
  State.reset.crRctype = 0x16#8 ∧ State.reset.params.mfWMax = 8 ∧ State.reset.params.ageW = 32

/-- R200. -/
def Obligations.NopHasNoEffect : Prop :=
  decode 0x0000#16 = .ok .nop ∧ (∀ imm : Byte, imm ≠ 0#8 → ∃ e, decode (packWord 0 0 imm) = .error e) ∧
  ∀ s : State, exec .nop s = .next s

/-- R203: TICK counts up to `2^AGE_W - 1` and stays there, where CR.STAT shows AGESAT; that is 0xFFFFFFFF for AGE_W = 32;
an accepted frame sets AGE to 0. -/
def Obligations.TickCountsAndSaturates : Prop :=
  decode 0x0200#16 = .ok .tick ∧
  (∀ s : State, s.age < 2 ^ s.params.ageW - 1 → exec .tick s = .next { s with age := s.age + 1 }) ∧
  (∀ s : State, s.age = 2 ^ s.params.ageW - 1 → exec .tick s = .next s ∧ (readCtrl s .stat).getLsbD 6 = true) ∧
  (∀ s : State, s.params.ageW = 32 → s.age = 0xFFFFFFFF →
    exec .tick s = .next s ∧ (readCtrl s .stat).getLsbD 6 = true) ∧
  (∀ (l : Nat) (s : State), (acceptFrame l s).age = 0)

/-- R204, R108: GETAGE reports AGE in `AGE_W / 8` bytes, least significant first: four for AGE_W = 32. -/
def Obligations.GetageReportsAge : Prop :=
  decode 0x0300#16 = .ok .getage ∧
  (∀ s : State, exec .getage s = .next { s with events := s.events ++ [.age s.age] }) ∧
  (∀ (p : Config.Params) (a : Nat), ∃ body, (Event.age a).bytes p = 0x08#8 :: body ∧ body.length = p.ageW / 8 ∧
    (p.ageW % 8 = 0 → a < 2 ^ p.ageW → leNumber body = a)) ∧
  (∀ (p : Config.Params) (a : Nat), p.ageW = 32 → a < 2 ^ 32 → ((Event.age a).bytes p).map BitVec.toNat =
    [8, a % 256, a / 2 ^ 8 % 256, a / 2 ^ 16 % 256, a / 2 ^ 24])

/-- R202: GETCH reports a channel register for 1 to 16 and raises OutOfRange otherwise; the value is the one the last EV_CHAN
carried, 1500 after reset, and MF_UPD does not change it. -/
def Obligations.GetchReportsChannelOrRaises : Prop :=
  (∀ imm : Byte, decode (packWord 0 4 imm) = .ok (.getch imm)) ∧
  (∀ (s : State) (imm : Byte) (k : Fin 16), imm.toNat = k.val + 1 →
    exec (.getch imm) s = .next { s with events := s.events ++ [.val16 s.ch[k]] }) ∧
  (∀ (s : State) (imm : Byte), imm.toNat = 0 ∨ 17 ≤ imm.toNat →
    exec (.getch imm) s =
      .next { s with events := s.events ++ [.err .outOfRange], crErr := s.crErr ||| 0x20#8 }) ∧
  (∀ (p : Config.Params) (v : Val), ((Event.val16 v).bytes p).map BitVec.toNat = [6, v.toNat % 256, v.toNat / 256]) ∧
  (∀ (p : Config.Params) (k : Fin 16), (State.resetWith p).ch[k] = 1500#16) ∧
  (∀ (s : State) (q : List Byte), q.length = 22 →
    (rcStage q s).events = s.events ++ [.chan (rcStage q s).ch]) ∧
  (∀ (s t : State) (n : BitVec 4), exec (.mfUpd n) s = .next t → t.ch = s.ch)

/-- R205, R206: OPLO and OPHI write one byte of OPR and leave the other, and nothing but they and SRST writes OPR;
LDOP (R89) loads all 16 bits. -/
def Obligations.OperandRegisterHalves : Prop :=
  (∀ imm : Byte, decode (packWord 0 5 imm) = .ok (.oplo imm) ∧ decode (packWord 0 6 imm) = .ok (.ophi imm)) ∧
  (∀ (s : State) (imm : Byte),
    exec (.oplo imm) s = .next { s with opr := BitVec.ofNat 16 (s.opr.toNat / 256 * 256 + imm.toNat) }) ∧
  (∀ (s : State) (imm : Byte),
    exec (.ophi imm) s = .next { s with opr := BitVec.ofNat 16 (imm.toNat * 256 + s.opr.toNat % 256) }) ∧
  (∀ (s : State) (v : Val), execAll (loadOpr v) s = .next { s with opr := v }) ∧
  (∀ (i : Instr) (s t : State), exec i s = .next t → (∀ b, i ≠ .oplo b) → (∀ b, i ≠ .ophi b) → i ≠ .srst →
    t.opr = s.opr)

/-- R207: WRCR, register by register; MF_WMAX is 8 unless the block is built with another. -/
def Obligations.WrcrWritesTheNamedRegister : Prop :=
  (∀ (n : BitVec 4) (v : Byte), decode (packWord 1 n v) = .ok (.wrcr n v)) ∧
  (∀ (s : State) (v : Byte), exec (.wrcr 0#4 v) s = .next { s with crAddr := v }) ∧
  (∀ (s : State) (v : Byte), exec (.wrcr 1#4 v) s = .next { s with crMaxlen := v }) ∧
  (∀ (s : State) (v : Byte), exec (.wrcr 2#4 v) s = .next { s with crRctype := v }) ∧
  (∀ (s : State) (v : Byte), 1 ≤ v.toNat → v.toNat ≤ s.params.mfWMax →
    exec (.wrcr 3#4 v) s = .next { s with crMfwin := v, win := Vector.replicate 16 [] }) ∧
  (∀ (s : State) (v : Byte), v.toNat = 0 ∨ s.params.mfWMax < v.toNat →
    exec (.wrcr 3#4 v) s =
      .next { s with events := s.events ++ [.err .outOfRange], crErr := s.crErr ||| 0x20#8 }) ∧
  (∀ (s : State) (v : Byte), exec (.wrcr 4#4 v) s = .next { s with crErr := s.crErr &&& ~~~v }) ∧
  (∀ (s : State) (n : BitVec 4) (v : Byte), 5 ≤ n.toNat →
    exec (.wrcr n v) s =
      .next { s with events := s.events ++ [.err .outOfRange], crErr := s.crErr ||| 0x20#8 })

/-- R208, R41, R28: RDCR, register by register, with CR.STAT computed from the state and changing nothing. -/
def Obligations.RdcrReportsTheNamedRegister : Prop :=
  (∀ n : BitVec 4, decode (packWord 2 n 0) = .ok (.rdcr n)) ∧
  (∀ (n : BitVec 4) (imm : Byte), imm ≠ 0#8 → ∃ e, decode (packWord 2 n imm) = .error e) ∧
  (∀ s : State, exec (.rdcr 0#4) s = .next { s with events := s.events ++ [.val8 s.crAddr] }) ∧
  (∀ s : State, exec (.rdcr 1#4) s = .next { s with events := s.events ++ [.val8 s.crMaxlen] }) ∧
  (∀ s : State, exec (.rdcr 2#4) s = .next { s with events := s.events ++ [.val8 s.crRctype] }) ∧
  (∀ s : State, exec (.rdcr 3#4) s = .next { s with events := s.events ++ [.val8 s.crMfwin] }) ∧
  (∀ s : State, exec (.rdcr 4#4) s = .next { s with events := s.events ++ [.val8 s.crErr] }) ∧
  (∀ s : State, exec (.rdcr 5#4) s = .next { s with events := s.events ++ [.val8 (BitVec.ofNat 8
    (s.mspSt.code.toNat + 8 * s.hdr.toNat + (if s.seen then 32 else 0) +
      (if s.age = 2 ^ s.params.ageW - 1 then 64 else 0)))] }) ∧
  ([MspState.seekHeader, .readLength, .readCommand, .readPayload, .readChecksum, .done].map
    fun st => st.code.toNat) = [0, 1, 2, 3, 4, 5] ∧
  (∀ (s : State) (n : BitVec 4), 6 ≤ n.toNat →
    exec (.rdcr n) s =
      .next { s with events := s.events ++ [.err .outOfRange], crErr := s.crErr ||| 0x20#8 })

/-! ## XOR checksum -/

/-- R112 to R115: the four operations of the XOR accumulator. -/
def Obligations.XorAccumulatorOperations : Prop :=
  decode 0x3000#16 = .ok .xorInit ∧ decode 0x3200#16 = .ok .xorRd ∧
  (∀ imm : Byte, imm ≠ 0#8 → ∃ e, decode (packWord 3 0 imm) = .error e) ∧
  (∀ imm : Byte, decode (packWord 3 1 imm) = .ok (.xorUpd imm) ∧ decode (packWord 3 3 imm) = .ok (.xorChk imm)) ∧
  (∀ s : State, exec .xorInit s = .next { s with xora := 0x00#8 }) ∧
  (∀ (s : State) (imm : Byte), exec (.xorUpd imm) s = .next { s with xora := s.xora ^^^ imm }) ∧
  (∀ s : State, exec .xorRd s = .next { s with events := s.events ++ [.val8 s.xora] }) ∧
  (∀ (s : State) (imm : Byte), s.xora = imm →
    exec (.xorChk imm) s = .next { s with events := s.events ++ [.val8 0x01#8] }) ∧
  (∀ (s : State) (imm : Byte), s.xora ≠ imm →
    exec (.xorChk imm) s = .next { s with events := s.events ++ [.val8 0x00#8] }) ∧
  (∀ (p : Config.Params) (v : Byte), (Event.val8 v).bytes p = [0x05#8, v])

/-- R110, R111: the laws of `xor_fold`, and that a checksum is its own verifier. -/
def Obligations.XorChecksumLaws : Prop :=
  xorFold [] = 0x00#8 ∧
  (∀ (s : List Byte) (b : Byte), xorFold (s ++ [b]) = xorFold s ^^^ b) ∧
  (∀ s t : List Byte, s.Perm t → xorFold s = xorFold t) ∧
  (∀ (n c : Byte) (p : List Byte), mspChecksum n c p = xorFold ([n, c] ++ p)) ∧
  (∀ (n c r : Byte) (p : List Byte), mspValidate n c p r = true ↔ r = xorFold ([n, c] ++ p)) ∧
  (∀ (n c r : Byte) (p : List Byte), mspValidate n c p r = true ↔ xorFold ([n, c] ++ p ++ [r]) = 0x00#8)

/-- R113, R89: XOR_INIT, an XOR_UPD for each byte and XOR_RD report `xor_fold` of the bytes; with XOR_CHK in place of
XOR_RD they report whether it equals the operand. -/
def Obligations.XorSequencesReportTheFold : Prop :=
  (∀ (s : State) (bytes : List Byte), execAll (xorSum bytes) s =
    .next { s with xora := xorFold bytes, events := s.events ++ [.val8 (xorFold bytes)] }) ∧
  (∀ (s : State) (r : Byte) (bytes : List Byte), execAll (xorVal r bytes) s =
    .next { s with
      xora := xorFold bytes
      events := s.events ++ [.val8 (if r = xorFold bytes then 0x01#8 else 0x00#8)] })

/-! ## CRC-8 -/

/-- R141: every entry of CRC_ROM is what the eight rounds of the generator give, and the table is a permutation. The
polynomial is the spec's general knowledge (log 7). -/
def Obligations.CrcRomIsGeneratedAndInjective : Prop :=
  (∀ i : Byte, crcRom i = crcGen i) ∧ Function.Injective crcRom

/-- R143 to R145: the three operations of the CRC accumulator. -/
def Obligations.CrcAccumulatorOperations : Prop :=
  decode 0x5000#16 = .ok .crcInit ∧ decode 0x5200#16 = .ok .crcRd ∧
  (∀ imm : Byte, imm ≠ 0#8 → ∃ e, decode (packWord 5 0 imm) = .error e) ∧
  (∀ imm : Byte, decode (packWord 5 1 imm) = .ok (.crcUpd imm)) ∧
  (∀ s : State, exec .crcInit s = .next { s with crca := 0x00#8 }) ∧
  (∀ (s : State) (imm : Byte), exec (.crcUpd imm) s = .next { s with crca := crcRom (s.crca ^^^ imm) }) ∧
  (∀ s : State, exec .crcRd s = .next { s with events := s.events ++ [.val8 s.crca] }) ∧
  (∀ (s : State) (bytes : List Byte), execAll (crcSum bytes) s =
    .next { s with crca := crc8 bytes, events := s.events ++ [.val8 (crc8 bytes)] })

/-- R142, R146 a to d: the fold, leading zeros, the self-check, and that no change of one byte goes unnoticed; for every
table with the property each law needs. -/
def Obligations.CrcLaws : Prop :=
  (∀ rom : Byte → Byte, crc8With rom [] = 0x00#8) ∧
  (∀ (rom : Byte → Byte) (s : List Byte) (b : Byte), crc8With rom (s ++ [b]) = rom (crc8With rom s ^^^ b)) ∧
  (∀ (rom : Byte → Byte) (s : List Byte), rom 0 = 0 → crc8With rom (0 :: s) = crc8With rom s) ∧
  (∀ (rom : Byte → Byte) (s : List Byte), crc8With rom (s ++ [crc8With rom s]) = rom 0) ∧
  (∀ (rom : Byte → Byte) (pre post : List Byte) (x y : Byte), Function.Injective rom → x ≠ y →
    crc8With rom (pre ++ x :: post) ≠ crc8With rom (pre ++ y :: post)) ∧
  crcRom 0 = 0 ∧ Function.Injective crcRom

/-! ## MSP receive -/

/-- R121 to R128, R130: every row of the transition table, with what it writes and that it writes nothing else. In
ReadPayload the count is below the length, in ReadChecksum the payload is written, as R47 and R30 say of every state
between operations. -/
def Obligations.MspReceiverFollowsTransitionTable : Prop :=
  (∀ b : Byte, decode (packWord 4 0 b) = .ok (.mspPush b)) ∧
  (∀ s : State, s.mspSt = .seekHeader → s.hdr = 0#2 → exec (.mspPush 0x24#8) s = .next { s with hdr := 1#2 }) ∧
  (∀ (s : State) (b : Byte), s.mspSt = .seekHeader → s.hdr = 0#2 → b ≠ 0x24#8 →
    exec (.mspPush b) s = .next { s with crErr := s.crErr ||| 0x08#8 }) ∧
  (∀ s : State, s.mspSt = .seekHeader → s.hdr = 1#2 → exec (.mspPush 0x4D#8) s = .next { s with hdr := 2#2 }) ∧
  (∀ s : State, s.mspSt = .seekHeader → s.hdr = 2#2 →
    exec (.mspPush 0x3E#8) s = .next { s with hdr := 0#2, mspSt := .readLength }) ∧
  (∀ s : State, s.mspSt = .seekHeader → s.hdr = 1#2 ∨ s.hdr = 2#2 →
    exec (.mspPush 0x24#8) s = .next { s with hdr := 1#2, crErr := s.crErr ||| 0x08#8 }) ∧
  (∀ (s : State) (b : Byte), s.mspSt = .seekHeader → s.hdr = 1#2 ∧ b ≠ 0x4D#8 ∨ s.hdr = 2#2 ∧ b ≠ 0x3E#8 →
    b ≠ 0x24#8 → exec (.mspPush b) s = .next { s with hdr := 0#2, crErr := s.crErr ||| 0x08#8 }) ∧
  (∀ (s : State) (b : Byte), s.mspSt = .readLength →
    exec (.mspPush b) s = .next { s with mspLen := b, mspCk := b, mspSt := .readCommand }) ∧
  (∀ (s : State) (b : Byte), s.mspSt = .readCommand → s.mspLen = 0#8 →
    exec (.mspPush b) s =
      .next { s with mspCmd := b, mspCk := s.mspCk ^^^ b, mspCnt := 0#8, mspSt := .readChecksum }) ∧
  (∀ (s : State) (b : Byte), s.mspSt = .readCommand → s.mspLen ≠ 0#8 →
    exec (.mspPush b) s =
      .next { s with mspCmd := b, mspCk := s.mspCk ^^^ b, mspCnt := 0#8, mspSt := .readPayload }) ∧
  (∀ (s : State) (b : Byte), s.mspSt = .readPayload → s.mspCnt.toNat + 1 < s.mspLen.toNat →
    exec (.mspPush b) s =
      .next { s with
        mspPay := memWrite s.mspPay s.mspCnt.toNat b
        mspCk := s.mspCk ^^^ b
        mspCnt := BitVec.ofNat 8 (s.mspCnt.toNat + 1) }) ∧
  (∀ (s : State) (b : Byte), s.mspSt = .readPayload → s.mspCnt.toNat + 1 = s.mspLen.toNat →
    exec (.mspPush b) s =
      .next { s with
        mspPay := memWrite s.mspPay s.mspCnt.toNat b
        mspCk := s.mspCk ^^^ b
        mspCnt := s.mspLen
        mspSt := .readChecksum }) ∧
  (∀ (s : State) (p : List Byte), s.mspSt = .readChecksum → memPrefix s.mspPay s.mspLen.toNat = some p →
    exec (.mspPush s.mspCk) s =
      .next { s with
        mspSt := .seekHeader
        hdr := 0#2
        events := s.events ++ [.msp 0x3E#8 s.mspLen s.mspCmd p] }) ∧
  (∀ (s : State) (b : Byte), s.mspSt = .readChecksum → b ≠ s.mspCk →
    exec (.mspPush b) s = .next { s with mspSt := .seekHeader, hdr := 0#2, crErr := s.crErr ||| 0x10#8 }) ∧
  decode 0x4100#16 = .ok .mspAbort ∧
  (∀ s : State, s.mspSt ≠ .seekHeader →
    exec .mspAbort s =
      .next { s with
        mspSt := .seekHeader, hdr := 0#2, mspLen := 0#8, mspCmd := 0#8, mspCnt := 0#8, mspCk := 0#8
        crErr := s.crErr ||| 0x80#8 }) ∧
  (∀ s : State, s.mspSt = .seekHeader →
    exec .mspAbort s =
      .next { s with hdr := 0#2, mspLen := 0#8, mspCmd := 0#8, mspCnt := 0#8, mspCk := 0#8 })

/-- R123: from SeekHeader with `HDR` 0, over bytes none of whose shorter beginnings ends in the header, the header is
matched exactly when the last three bytes pushed are 24 4D 3E; whatever happens, the push goes on. -/
def Obligations.HeaderIsMatchedExactlyByItsThreeBytes : Prop :=
  ∀ (s : State) (bytes : List Byte), s.mspSt = .seekHeader → s.hdr = 0#2 →
    (∀ pre, pre <+: bytes → pre ≠ bytes → ¬ [0x24#8, 0x4D#8, 0x3E#8] <:+ pre) →
    ∃ t, execAll (mspSend bytes) s = .next t ∧
      (t.mspSt = .readLength ↔ [0x24#8, 0x4D#8, 0x3E#8] <:+ bytes) ∧
      (t.mspSt = .seekHeader ↔ ¬ [0x24#8, 0x4D#8, 0x3E#8] <:+ bytes)

/-- R135, R129 b: an encoded request turned into response form and pushed into a receiver in SeekHeader with `HDR` 0
gives exactly one EV_MSP with the same command and payload; the receiver is at SeekHeader again, no flag is set, and
nothing outside the MSP receiver changes. -/
def Obligations.MspRoundTripRecoversCommandAndPayload : Prop :=
  ∀ (s : State) (c : Byte) (p : List Byte), p.length ≤ 255 → s.mspSt = .seekHeader → s.hdr = 0#2 →
    ∃ pay : Memory, memPrefix pay p.length = some p ∧
      execAll (mspSend (asResponse (mspEncode c p))) s =
        .next { s with
          mspLen := BitVec.ofNat 8 p.length
          mspCmd := c
          mspCnt := BitVec.ofNat 8 p.length
          mspCk := mspChecksum (BitVec.ofNat 8 p.length) c p
          mspPay := pay
          events := s.events ++ [.msp 0x3E#8 (BitVec.ofNat 8 p.length) c p] }

/-! ## MSP transmit -/

/-- R131, R132, R133: the three operations of the request encoder. ENC_CLOSE reads the bytes staged, which R31 says are
written whenever the state is one between operations. -/
def Obligations.EncoderOperations : Prop :=
  (∀ imm : Byte, decode (packWord 4 2 imm) = .ok (.encOpen imm) ∧ decode (packWord 4 3 imm) = .ok (.encByte imm)) ∧
  decode 0x4400#16 = .ok .encClose ∧
  (∀ (s : State) (imm : Byte), exec (.encOpen imm) s = .next { s with txCmd := imm, txN := 0#8, txOvf := false }) ∧
  (∀ (s : State) (imm : Byte), s.txN.toNat < 255 →
    exec (.encByte imm) s =
      .next { s with txb := memWrite s.txb s.txN.toNat imm, txN := BitVec.ofNat 8 (s.txN.toNat + 1) }) ∧
  (∀ (s : State) (imm : Byte), s.txN.toNat = 255 → exec (.encByte imm) s = .next { s with txOvf := true }) ∧
  (∀ s : State, s.txOvf = true →
    exec .encClose s =
      .next { s with
        events := s.events ++ [.err .payloadTooLarge], crErr := s.crErr ||| 0x20#8, txN := 0#8, txOvf := false }) ∧
  (∀ (s : State) (p : List Byte), s.txOvf = false → memPrefix s.txb s.txN.toNat = some p →
    exec .encClose s =
      .next { s with
        events := s.events ++ [.tx ([0x24#8, 0x4D#8, 0x3C#8, s.txN, s.txCmd] ++ p ++ [xorFold ([s.txN, s.txCmd] ++ p)])]
        txN := 0#8, txOvf := false })

/-- R133, R134: ENC_OPEN, one ENC_BYTE for each payload byte and ENC_CLOSE emit the encoded request when the payload has
at most 255 bytes, and raise PayloadTooLarge, with no frame, when it has more; nothing else changes but the staging. -/
def Obligations.RequestSequencesEncodeOrRaise : Prop :=
  (∀ (s : State) (c : Byte) (p : List Byte), p.length ≤ 255 →
    ∃ txb : Memory, execAll (mspReq c p) s =
      .next { s with txCmd := c, txN := 0#8, txOvf := false, txb := txb, events := s.events ++ [.tx (mspEncode c p)] }) ∧
  (∀ (s : State) (c : Byte) (p : List Byte), 255 < p.length →
    ∃ txb : Memory, execAll (mspReq c p) s =
      .next { s with
        txCmd := c, txN := 0#8, txOvf := false, txb := txb
        events := s.events ++ [.err .payloadTooLarge], crErr := s.crErr ||| 0x20#8 }) ∧
  (∀ (c : Byte) (p : List Byte), p.length ≤ 255 →
    mspEncode c p =
      [0x24#8, 0x4D#8, 0x3C#8, BitVec.ofNat 8 p.length, c] ++ p ++ [xorFold ([BitVec.ofNat 8 p.length, c] ++ p)]) ∧
  (∀ (c : Byte) (p : List Byte), (mspEncode c p).length = 6 + p.length)

/-! ## CRSF parser -/

/-- R151: CRSF_PUSH appends its byte and runs the search, whenever CBUF is not full. -/
def Obligations.CrsfPushAppendsThenSearches : Prop :=
  (∀ b : Byte, decode (packWord 6 0 b) = .ok (.crsfPush b)) ∧
  (∀ (s : State) (b : Byte), s.cbuf.length ≤ 256 →
    exec (.crsfPush b) s = .next (processCrsf crcRom { s with cbuf := s.cbuf ++ [b] }))

/-- R152 to R158, R176: the search, for any CRC table: it ends where a round returns and otherwise goes round again; and
each step of a round: (a) fewer than two bytes; (b) not the address; (c) an invalid
length; (d) incomplete; (e) a CRC that differs; acceptance of another type, of the RC type with 22 payload bytes, and of
the RC type with another payload length. -/
def Obligations.SearchRoundFollowsItsSteps : Prop :=
  ∀ rom : Byte → Byte,
  (∀ s : State, searchRound rom s = none → processCrsf rom s = s) ∧
  (∀ s t : State, searchRound rom s = some t → processCrsf rom s = processCrsf rom t) ∧
  (∀ s : State, s.cbuf.length < 2 → searchRound rom s = none) ∧
  (∀ (s : State) (a l : Byte) (rest : List Byte), s.cbuf = a :: l :: rest → a ≠ s.crAddr →
    searchRound rom s = some { s with cbuf := l :: rest, crErr := s.crErr ||| 0x01#8 }) ∧
  (∀ (s : State) (l : Byte) (rest : List Byte), s.cbuf = s.crAddr :: l :: rest →
    l.toNat < 2 ∨ s.crMaxlen.toNat < l.toNat →
    searchRound rom s = some { s with cbuf := l :: rest, crErr := s.crErr ||| 0x02#8 }) ∧
  (∀ (s : State) (l : Byte) (rest : List Byte), s.cbuf = s.crAddr :: l :: rest →
    2 ≤ l.toNat → l.toNat ≤ s.crMaxlen.toNat → rest.length < l.toNat → searchRound rom s = none) ∧
  (∀ (s : State) (l c : Byte) (body more : List Byte), s.cbuf = s.crAddr :: l :: (body ++ c :: more) →
    ValidFrame s l body → crc8With rom body ≠ c →
    searchRound rom s = some { s with cbuf := l :: (body ++ c :: more), crErr := s.crErr ||| 0x04#8 }) ∧
  (∀ (s : State) (l ty : Byte) (payload more : List Byte), s.cbuf = frameBytes rom s l (ty :: payload) ++ more →
    ValidFrame s l (ty :: payload) → ty ≠ s.crRctype →
    searchRound rom s =
      some { s with
        cbuf := more, age := 0, seen := true
        events := s.events ++ [.frame (frameBytes rom s l (ty :: payload))] }) ∧
  (∀ (s : State) (l : Byte) (payload more : List Byte), s.cbuf = frameBytes rom s l (s.crRctype :: payload) ++ more →
    ValidFrame s l (s.crRctype :: payload) → payload.length = 22 →
    searchRound rom s =
      some { s with
        cbuf := more, age := 0, seen := true
        win := pushAll s.crMfwin.toNat s.win (decodeChannels payload)
        ch := filterAll s.crMfwin.toNat (pushAll s.crMfwin.toNat s.win (decodeChannels payload))
          (decodeChannels payload)
        events := s.events ++ [.frame (frameBytes rom s l (s.crRctype :: payload)),
          .chan (filterAll s.crMfwin.toNat (pushAll s.crMfwin.toNat s.win (decodeChannels payload))
            (decodeChannels payload))] }) ∧
  (∀ (s : State) (l : Byte) (payload more : List Byte), s.cbuf = frameBytes rom s l (s.crRctype :: payload) ++ more →
    ValidFrame s l (s.crRctype :: payload) → payload.length ≠ 22 →
    searchRound rom s =
      some { s with
        cbuf := more, age := 0, seen := true
        events := s.events ++ [.frame (frameBytes rom s l (s.crRctype :: payload)), .err .invalidPayloadLength]
        crErr := s.crErr ||| 0x20#8 })

/-- R159, for any CRC table: every round that does not return shortens CBUF from the front; the search ends where a round
returns, however many rounds it is allowed beyond the bytes of CBUF; it accepts at most a quarter as many frames as CBUF
has bytes. -/
def Obligations.SearchTerminatesAndMakesProgress : Prop :=
  ∀ (rom : Byte → Byte) (s : State),
  (∀ t, searchRound rom s = some t → t.cbuf <:+ s.cbuf ∧ t.cbuf.length < s.cbuf.length) ∧
  searchRound rom (processCrsf rom s) = none ∧
  (∀ n, s.cbuf.length ≤ n → searchLoop rom n s = processCrsf rom s) ∧
  (processCrsf rom s).events.countP Event.isFrame ≤ s.events.countP Event.isFrame + s.cbuf.length / 4

/-- R160, for any CRC table: feeding a stream in two chunks is feeding it in one, so every chunking gives the same state
and events; and pushing it byte by byte through CRSF_PUSH is one of them. -/
def Obligations.ChunkingDoesNotMatter : Prop :=
  (∀ (rom : Byte → Byte) (s : State) (x y : List Byte),
    feedCrsf rom y (feedCrsf rom x s) = feedCrsf rom (x ++ y) s) ∧
  (∀ (rom : Byte → Byte) (s : State) (chunks : List (List Byte)), chunks ≠ [] →
    chunks.foldl (fun t c => feedCrsf rom c t) s = feedCrsf rom chunks.flatten s) ∧
  (∀ (s : State) (bytes : List Byte), s.cbuf.length ≤ 256 → bytes ≠ [] →
    execAll (crsfSend bytes) s = .next (feedCrsf crcRom bytes s))

/-- R161: where the search stops, how many bytes can then wait, that the append of the next push finds room, and that no
step, a write of CR.ADDR or CR.MAXLEN among them, makes the buffer longer than 256 bytes. -/
def Obligations.CrsfBufferNeverOverflows : Prop :=
  (∀ (rom : Byte → Byte) (s t : State), t = processCrsf rom s →
    (t.cbuf.length < 2 ∨
      ∃ l rest, t.cbuf = t.crAddr :: l :: rest ∧ 2 ≤ l.toNat ∧ l.toNat ≤ t.crMaxlen.toNat ∧
        t.cbuf.length < l.toNat + 2) ∧
    t.cbuf.length ≤ 256 ∧ (t.crMaxlen = 62#8 → t.cbuf.length ≤ 63)) ∧
  (∀ (s : State) (b : Byte), s.cbuf.length ≤ 256 → ∃ t, exec (.crsfPush b) s = .next t ∧ t.cbuf.length ≤ 256) ∧
  (∀ s t : State, s.cbuf.length ≤ 256 → step s = .next t → t.cbuf.length ≤ 256) ∧
  (∀ (s t : State) (n : BitVec 4) (v : Byte), exec (.wrcr n v) s = .next t → t.cbuf = s.cbuf)

/-- R157, R158, R176: the bytes of one valid frame pushed into an empty buffer are delivered: EV_FRAME, age and SEEN, and
for the RC type of 22 payload bytes the filtered channels, for another payload length InvalidPayloadLength; nothing else
changes. -/
def Obligations.ValidFrameIsDelivered : Prop :=
  (∀ (s : State) (l ty : Byte) (payload : List Byte), s.cbuf = [] → ValidFrame s l (ty :: payload) →
    ty ≠ s.crRctype →
    execAll (crsfSend (frameBytes crcRom s l (ty :: payload))) s =
      .next { s with
        age := 0, seen := true
        events := s.events ++ [.frame (frameBytes crcRom s l (ty :: payload))] }) ∧
  (∀ (s : State) (l : Byte) (payload : List Byte), s.cbuf = [] → ValidFrame s l (s.crRctype :: payload) →
    payload.length = 22 →
    ∃ ch, ch = filterAll s.crMfwin.toNat (pushAll s.crMfwin.toNat s.win (decodeChannels payload))
        (decodeChannels payload) ∧
      execAll (crsfSend (frameBytes crcRom s l (s.crRctype :: payload))) s =
        .next { s with
          age := 0, seen := true
          win := pushAll s.crMfwin.toNat s.win (decodeChannels payload)
          ch := ch
          events := s.events ++ [.frame (frameBytes crcRom s l (s.crRctype :: payload)), .chan ch] }) ∧
  (∀ (s : State) (l : Byte) (payload : List Byte), s.cbuf = [] → ValidFrame s l (s.crRctype :: payload) →
    payload.length ≠ 22 →
    execAll (crsfSend (frameBytes crcRom s l (s.crRctype :: payload))) s =
      .next { s with
        age := 0, seen := true
        events := s.events ++ [.frame (frameBytes crcRom s l (s.crRctype :: payload)), .err .invalidPayloadLength]
        crErr := s.crErr ||| 0x20#8 })

/-- R160 (the resync property S4): one garbage byte before a valid frame changes nothing about its delivery but one
sticky flag: CRSF_DESYNC for a byte that is not the address, CRSF_LENINV for the address itself when it is no valid
length (below 2 or above CR.MAXLEN, R154). The garbage byte R160 sets apart, the address where the address is a valid
length, begins a candidate that delays the frame; this statement does not speak of it. -/
def Obligations.GarbageByteDoesNotLoseTheFrame : Prop :=
  ∀ (s : State) (l : Byte) (body : List Byte) (g : Byte), s.cbuf = [] → ValidFrame s l body →
    (g ≠ s.crAddr → ∃ t, execAll (crsfSend (frameBytes crcRom s l body)) s = .next t ∧
      execAll (crsfSend (g :: frameBytes crcRom s l body)) s = .next (setFlag .crsfDesync t)) ∧
    (g = s.crAddr → s.crAddr.toNat < 2 ∨ s.crMaxlen.toNat < s.crAddr.toNat →
      ∃ t, execAll (crsfSend (frameBytes crcRom s l body)) s = .next t ∧
        execAll (crsfSend (g :: frameBytes crcRom s l body)) s = .next (setFlag .crsfLeninv t))

/-! ## Channel decoder -/

/-- R172: on 22 bytes the accumulator procedure of R171 gives the 11-bit fields of the little-endian number, each from at
most three consecutive bytes, and is a bijection onto 16 fields. -/
def Obligations.UnpackerEqualsClosedForm : Prop :=
  (∀ p : List Byte, p.length = 22 → unpack11 p = (List.range 16).map (unpackField p)) ∧
  (∀ (p : List Byte) (i : Nat), p.length = 22 → i < 16 →
    (unpackField p i).toNat =
      ((p.getD (11 * i / 8) 0).toNat + 2 ^ 8 * (p.getD (11 * i / 8 + 1) 0).toNat +
        2 ^ 16 * (p.getD (11 * i / 8 + 2) 0).toNat) / 2 ^ (11 * i % 8) % 2048) ∧
  (∀ p q : List Byte, p.length = 22 → q.length = 22 → unpack11 p = unpack11 q → p = q) ∧
  (∀ r : List Raw, r.length = 16 → ∃ p : List Byte, p.length = 22 ∧ unpack11 p = r)

/-- R173: the microsecond map, in both its forms, exact, with no clamping, at most 2044. -/
def Obligations.MicrosecondMapFormula : Prop :=
  (∀ r : Raw, (mapUs r).toNat = 988 + r.toNat * 1024 / 1984) ∧
  (∀ r : Raw, (mapUs r).toNat = 988 + r.toNat * (2012 - 988) / 1984) ∧
  (∀ r : Raw, (mapUs r).toNat = 988 + 16 * r.toNat / 31) ∧
  (∀ r : Raw, (mapUs r).toNat ≤ 2044)

/-- R175 (the spec's inference from R173): the map's order, range and values. -/
def Obligations.MicrosecondMapRange : Prop :=
  (∀ r r' : Raw, r.toNat ≤ r'.toNat → (mapUs r).toNat ≤ (mapUs r').toNat) ∧
  (∀ r : Raw, InRange (mapUs r)) ∧
  (∀ r : Raw, r.toNat ≤ 1984 → (mapUs r).toNat ≤ 2012) ∧
  (∀ r : Raw, 1984 + 2 ≤ r.toNat → 2012 < (mapUs r).toNat) ∧
  mapUs 0#11 = 988#16 ∧ mapUs 1#11 = 988#16 ∧ mapUs 2#11 = 989#16 ∧ mapUs 992#11 = 1500#16 ∧
  mapUs 1984#11 = 2012#16 ∧ mapUs 2047#11 = 2044#16

/-- R177, R178, R179: the three operations of the stand-alone decoder. DEC_CLOSE reads the bytes staged, which R32 says
are written whenever the state is one between operations. -/
def Obligations.StandAloneDecoderOperations : Prop :=
  decode 0x7000#16 = .ok .decOpen ∧ decode 0x7200#16 = .ok .decClose ∧
  (∀ imm : Byte, decode (packWord 7 1 imm) = .ok (.decByte imm)) ∧
  (∀ s : State, exec .decOpen s = .next { s with dn := 0#5, dOvf := false }) ∧
  (∀ (s : State) (imm : Byte), s.dn.toNat < 22 →
    exec (.decByte imm) s =
      .next { s with dbuf := memWrite s.dbuf s.dn.toNat imm, dn := BitVec.ofNat 5 (s.dn.toNat + 1) }) ∧
  (∀ (s : State) (imm : Byte), 22 ≤ s.dn.toNat → exec (.decByte imm) s = .next { s with dOvf := true }) ∧
  (∀ (s : State) (p : List Byte), s.dn.toNat = 22 → s.dOvf = false → memPrefix s.dbuf 22 = some p →
    exec .decClose s =
      .next { s with events := s.events ++ [.dec (decodeChannels p)], dn := 0#5, dOvf := false }) ∧
  (∀ s : State, s.dn.toNat ≠ 22 ∨ s.dOvf = true →
    exec .decClose s =
      .next { s with
        events := s.events ++ [.err .invalidPayloadLength], crErr := s.crErr ||| 0x20#8, dn := 0#5, dOvf := false })

/-- R174, R179: DEC_OPEN, one DEC_BYTE for each payload byte and DEC_CLOSE report the 16 microsecond values of the
payload's 11-bit fields when there are exactly 22 bytes, and raise InvalidPayloadLength otherwise. -/
def Obligations.DecodeSequencesReportChannelsOrRaise : Prop :=
  (∀ (s : State) (p : List Byte), p.length = 22 →
    ∃ (dbuf : Memory) (us : Vector Val 16), execAll (decodeOps p) s =
      .next { s with dn := 0#5, dOvf := false, dbuf := dbuf, events := s.events ++ [.dec us] } ∧
      ∀ k : Fin 16, us[k] = mapUs (unpackField p k.val)) ∧
  (∀ (s : State) (p : List Byte), p.length ≠ 22 →
    ∃ dbuf : Memory, execAll (decodeOps p) s =
      .next { s with
        dn := 0#5, dOvf := false, dbuf := dbuf
        events := s.events ++ [.err .invalidPayloadLength], crErr := s.crErr ||| 0x20#8 })

/-- R176: the filters of the RC stage, applied to all channels at once, are the loop "for k from 1 to 16:
CH[k] <- mf_update(k, us[k])". -/
def Obligations.RcStageIsTheChannelLoop : Prop :=
  ∀ (s : State) (us : Vector Val 16),
    applyFilters us s =
      (List.finRange 16).foldl
        (fun t k => { (mfUpdate k us[k] t).1 with ch := t.ch.set k (mfUpdate k us[k] t).2 }) s

/-! ## Median filter -/

/-- R192: the median is the middle value of the window in non-decreasing order, or the average of the two middle values
rounded down, and depends only on which values the window holds. -/
def Obligations.MedianIsTheMiddleOfTheSortedWindow : Prop :=
  (∀ x : List Val, (sortVals x).Perm x ∧ (sortVals x).Pairwise (· ≤ ·)) ∧
  (∀ x s : List Val, s.Perm x → s.Pairwise (· ≤ ·) → x.length % 2 = 1 → s[(x.length - 1) / 2]? = some (median x)) ∧
  (∀ (x s : List Val) (a b : Val), s.Perm x → s.Pairwise (· ≤ ·) → x.length % 2 = 0 →
    s[x.length / 2 - 1]? = some a → s[x.length / 2]? = some b → (median x).toNat = (a.toNat + b.toNat) / 2) ∧
  (∀ x y : List Val, x.Perm y → median x = median y)

/-- R191, R193: MF_UPD pushes OPR into one window, evicting the oldest value of a full one, and reports the input while
the window is not full and the median once it is; it writes nothing but that window. -/
def Obligations.MfUpdPushesAndReports : Prop :=
  (∀ n : BitVec 4, decode (packWord 8 n 0) = .ok (.mfUpd n)) ∧
  (∀ (n : BitVec 4) (imm : Byte), imm ≠ 0#8 → ∃ e, decode (packWord 8 n imm) = .error e) ∧
  (∀ (s : State) (n : BitVec 4), (s.win[n.toFin]).length + 1 < s.crMfwin.toNat →
    exec (.mfUpd n) s =
      .next { s with
        win := s.win.set n.toFin (s.win[n.toFin] ++ [s.opr])
        events := s.events ++ [.val16 s.opr] }) ∧
  (∀ (s : State) (n : BitVec 4), (s.win[n.toFin]).length + 1 = s.crMfwin.toNat →
    exec (.mfUpd n) s =
      .next { s with
        win := s.win.set n.toFin (s.win[n.toFin] ++ [s.opr])
        events := s.events ++ [.val16 (median (s.win[n.toFin] ++ [s.opr]))] }) ∧
  (∀ (s : State) (n : BitVec 4) (oldest : Val) (rest : List Val), s.win[n.toFin] = oldest :: rest →
    rest.length + 1 = s.crMfwin.toNat →
    exec (.mfUpd n) s =
      .next { s with
        win := s.win.set n.toFin (rest ++ [s.opr])
        events := s.events ++ [.val16 (median (rest ++ [s.opr]))] })

/-- R190, R195 a, d, e: a window that takes values from empty holds the last `W` of them; a returned value lies between
bounds that hold of the window and the input; a constant input gives that constant. -/
def Obligations.WindowAndFilterProperties : Prop :=
  (∀ (w : Nat) (vs : List Val), 1 ≤ w → vs.foldl (pushWindow w) [] = vs.drop (vs.length - w)) ∧
  (∀ (w : Nat) (win : List Val) (v lo hi : Val), (∀ x ∈ win, lo ≤ x ∧ x ≤ hi) → lo ≤ v → v ≤ hi →
    lo ≤ filterValue w (pushWindow w win v) v ∧ filterValue w (pushWindow w win v) v ≤ hi) ∧
  (∀ (w : Nat) (win : List Val) (c : Val), (∀ x ∈ win, x = c) → filterValue w (pushWindow w win c) c = c)

/-- R25, R175, R247: a step keeps every channel register and window entry in 988 to 2044, unless it is an MF_UPD with a
value outside that range. -/
def Obligations.DecodedRangeIsKept : Prop :=
  (∀ p : Config.Params, RangeInv (State.resetWith p)) ∧
  ∀ s t : State, RangeInv s → step s = .next t →
    ((∃ n : BitVec 4, nextWord s = some (encode (.mfUpd n))) → InRange s.opr) → RangeInv t

/-! ## Byte stores -/

/-- R30, R31, R32 (frame of the byte stores): what an operation leaves in MSP_PAY, TXB and DBUF, read byte by byte. ENC_BYTE
stores at the count TXN, DEC_BYTE at DN, MSP_PUSH in ReadPayload at MSP_CNT, each its operand and nowhere else; at a full
count nothing is stored; no other operation changes a byte of a store, SRST apart, which leaves their contents
unspecified (log 3). -/
def Obligations.StoresChangeOnlyTheStagedByte : Prop :=
  (∀ (s t : State) (b : Byte), exec (.encByte b) s = .next t → s.txN.toNat < 255 →
    memRead t.txb s.txN.toNat = some b ∧ ∀ a : Nat, a ≠ s.txN.toNat → memRead t.txb a = memRead s.txb a) ∧
  (∀ (s t : State) (b : Byte), exec (.encByte b) s = .next t → s.txN.toNat = 255 →
    ∀ a : Nat, memRead t.txb a = memRead s.txb a) ∧
  (∀ (s t : State) (b : Byte), exec (.decByte b) s = .next t → s.dn.toNat < 22 →
    memRead t.dbuf s.dn.toNat = some b ∧ ∀ a : Nat, a ≠ s.dn.toNat → memRead t.dbuf a = memRead s.dbuf a) ∧
  (∀ (s t : State) (b : Byte), exec (.decByte b) s = .next t → 22 ≤ s.dn.toNat →
    ∀ a : Nat, memRead t.dbuf a = memRead s.dbuf a) ∧
  (∀ (s t : State) (b : Byte), exec (.mspPush b) s = .next t → s.mspSt = .readPayload →
    memRead t.mspPay s.mspCnt.toNat = some b ∧ ∀ a : Nat, a ≠ s.mspCnt.toNat → memRead t.mspPay a = memRead s.mspPay a) ∧
  (∀ (s t : State) (b : Byte), exec (.mspPush b) s = .next t → s.mspSt ≠ .readPayload →
    ∀ a : Nat, memRead t.mspPay a = memRead s.mspPay a) ∧
  (∀ (i : Instr) (s t : State) (a : Nat), exec i s = .next t → i ≠ .srst →
    ((∀ b, i ≠ .encByte b) → memRead t.txb a = memRead s.txb a) ∧
    ((∀ b, i ≠ .decByte b) → memRead t.dbuf a = memRead s.dbuf a) ∧
    ((∀ b, i ≠ .mspPush b) → memRead t.mspPay a = memRead s.mspPay a))

/-! ## Isolation -/

/-- R243, R22, R23, R249: CRSF_PUSH writes nothing but CBUF, AGE, SEEN, CH, WIN, CR.ERR and events; MSP_PUSH nothing but
the MSP receiver, CR.ERR and events; MF_UPD nothing but one window and events. -/
def Obligations.ReceiversDoNotTouchEachOther : Prop :=
  (∀ (s t : State) (b : Byte), exec (.crsfPush b) s = .next t →
    t = { s with
      cbuf := t.cbuf, age := t.age, seen := t.seen, ch := t.ch, win := t.win, crErr := t.crErr, events := t.events }) ∧
  (∀ (s t : State) (b : Byte), exec (.mspPush b) s = .next t →
    t = { s with
      mspSt := t.mspSt, hdr := t.hdr, mspLen := t.mspLen, mspCmd := t.mspCmd, mspCnt := t.mspCnt
      mspCk := t.mspCk, mspPay := t.mspPay, crErr := t.crErr, events := t.events }) ∧
  (∀ (s t : State) (n : BitVec 4), exec (.mfUpd n) s = .next t →
    t = { s with win := t.win, events := t.events } ∧ ∀ k : Fin 16, k ≠ n.toFin → t.win[k] = s.win[k])

/-- R249: a stand-alone operation that only stages or accumulates may stand before or after a push of either receiver
with the same result. -/
def Obligations.StandAloneOperationsCommuteWithPushes : Prop :=
  ∀ (s : State) (i j : Instr),
    ((∃ b, i = .xorUpd b) ∨ i = .xorInit ∨ (∃ b, i = .crcUpd b) ∨ i = .crcInit ∨ (∃ b, i = .decByte b) ∨ i = .decOpen ∨
      (∃ b, i = .encByte b) ∨ (∃ b, i = .encOpen b) ∨ (∃ b, i = .oplo b) ∨ (∃ b, i = .ophi b) ∨ i = .nop) →
    ((∃ b, j = .crsfPush b) ∨ ∃ b, j = .mspPush b) →
    execAll [i, j] s = execAll [j, i] s

/-! ## Invariants and stops -/

/-- R46, R47: the invariants hold after reset, at the defaults of R6's table and at every legal choice of its model
arguments. -/
def Obligations.InvariantsHoldAtReset : Prop :=
  BlockInv State.reset ∧ ∀ p : Config.Params, p.Legal → BlockInv (State.resetWith p)

/-- R47, R222: every step from a state with the invariants gives one with the invariants. -/
def Obligations.InvariantsAreKeptByEveryStep : Prop := ∀ s t : State, BlockInv s → step s = .next t → BlockInv t

/-- R249: from a state with the invariants every step goes on, whatever word is issued. -/
def Obligations.EveryStepGoesOn : Prop := ∀ s : State, BlockInv s → StepGoesOn s

/-- R47, R249, R5: a run from reset, over any list of command words and for every legal choice of the parameters, goes on
to its end with the invariants; every word is taken, every event has its shape, and the run answers the final block and
the events. That the words wait in the list `port` from the start, and that it is empty once all are taken, is the
model's choice (log 1). -/
def Obligations.EveryRunFromResetCompletes : Prop :=
  ∀ (p : Config.Params) (ws : List CmdWord), p.Legal → ∃ t : State,
    Sys2Proof.core.run ws.length { State.resetWith p with port := ws } = .next t ∧ t.port = [] ∧ BlockInv t ∧
      runBlock p ws = .next (t.toBlock, t.events)

/-- Logs 3, 4 and 9 (the model's choice): exactly where an operation stops, each a state or access the spec says does not
occur; nothing is refused. -/
def Obligations.StopsAreExactlyThoseNamed : Prop :=
  (∀ (i : Instr) (s : State) (f : Fault), exec i s = .fault f ↔
    ((∃ b, i = .mspPush b) ∧ s.mspSt = .done ∧ f = .mspDoneStored) ∨
    ((∃ b, i = .mspPush b) ∧ s.mspSt = .readPayload ∧ s.mspCnt = 255#8 ∧ f = .outsideStore .mspPay 255) ∨
    (i = .mspPush s.mspCk ∧ s.mspSt = .readChecksum ∧ memPrefix s.mspPay s.mspLen.toNat = none ∧
      f = .unwrittenByte .mspPay s.mspLen.toNat) ∨
    (i = .encClose ∧ s.txOvf = false ∧ memPrefix s.txb s.txN.toNat = none ∧
      f = .unwrittenByte .txb s.txN.toNat) ∨
    (i = .decClose ∧ s.dn = 22#5 ∧ s.dOvf = false ∧ memPrefix s.dbuf 22 = none ∧ f = .unwrittenByte .dbuf 22) ∨
    ((∃ b, i = .crsfPush b) ∧ 257 ≤ s.cbuf.length ∧ f = .outsideStore .cbuf s.cbuf.length)) ∧
  (∀ (i : Instr) (s : State) (r : Refusal), exec i s ≠ .refused r)

/-! ## What is no state of the block -/

/-- R45 a and b, R100, R5: past output, the words that still wait and the parameters are no state of the block. An
operation leaves the parameters and the waiting words; the events it appends and all it does to the block are the same
whatever was emitted before and whatever waits. That both stand in lists is the model's choice (logs 1 and 2). -/
def Obligations.PastOutputIsNoState : Prop :=
  (∀ (i : Instr) (s t : State), exec i s = .next t →
    t.params = s.params ∧ t.port = s.port ∧
    ∃ new, t.events = s.events ++ new ∧
      ∀ (port : List CmdWord) (past : List Event),
        exec i { s with port := port, events := past } = .next { t with port := port, events := past ++ new }) ∧
  (∀ (i : Instr) (s : State) (f : Fault) (port : List CmdWord) (past : List Event), exec i s = .fault f →
    exec i { s with port := port, events := past } = .fault f)
end

