-- ==== Sys2Proof/Laws/Decode.lean ====
section
/-! SUPPORT. The fields of a packed command word, and what a word of each format decodes to. -/

namespace Sys2Proof

theorem toNat_append_eq {m n : Nat} (a : BitVec m) (b : BitVec n) :
    (a ++ b).toNat = a.toNat * 2 ^ n + b.toNat := by
  rw [BitVec.toNat_append, Nat.shiftLeft_eq, Nat.mul_comm, ← Nat.two_pow_add_eq_or_of_lt b.isLt]

theorem packWord_toNat (a b : BitVec 4) (c : Byte) :
    (packWord a b c).toNat = a.toNat * 4096 + b.toNat * 256 + c.toNat := by
  show ((a ++ b) ++ c).toNat = _
  rw [toNat_append_eq, toNat_append_eq]
  omega

theorem majorOf_toNat (w : CmdWord) : (majorOf w).toNat = w.toNat / 4096 := by
  have := w.isLt
  simp only [majorOf, BitVec.extractLsb'_toNat, Nat.shiftRight_eq_div_pow]
  omega

theorem minorOf_toNat (w : CmdWord) : (minorOf w).toNat = w.toNat / 256 % 16 := by
  simp only [minorOf, BitVec.extractLsb'_toNat, Nat.shiftRight_eq_div_pow]

theorem immOf_toNat (w : CmdWord) : (immOf w).toNat = w.toNat % 256 := by
  simp only [immOf, BitVec.extractLsb'_toNat, Nat.shiftRight_eq_div_pow]
  simp

@[simp] theorem majorOf_packWord (a b : BitVec 4) (c : Byte) : majorOf (packWord a b c) = a := by
  have := b.isLt
  have := c.isLt
  apply BitVec.eq_of_toNat_eq
  rw [majorOf_toNat, packWord_toNat]
  omega

@[simp] theorem minorOf_packWord (a b : BitVec 4) (c : Byte) : minorOf (packWord a b c) = b := by
  have := b.isLt
  have := c.isLt
  apply BitVec.eq_of_toNat_eq
  rw [minorOf_toNat, packWord_toNat]
  omega

@[simp] theorem immOf_packWord (a b : BitVec 4) (c : Byte) : immOf (packWord a b c) = c := by
  have := c.isLt
  apply BitVec.eq_of_toNat_eq
  rw [immOf_toNat, packWord_toNat]
  omega

/-- A word is its three fields (R81). -/
@[simp] theorem packWord_fields (w : CmdWord) : packWord (majorOf w) (minorOf w) (immOf w) = w := by
  apply BitVec.eq_of_toNat_eq
  rw [packWord_toNat, majorOf_toNat, minorOf_toNat, immOf_toNat]
  omega

/-- All that the zero-immediate check can answer. -/
theorem needZeroImm_cases (w : CmdWord) (i : Instr) :
    (immOf w = 0#8 ∧ needZeroImm w i = .ok i) ∨ (immOf w ≠ 0#8 ∧ needZeroImm w i = .error (.immNotZero w)) := by
  unfold needZeroImm
  split <;> simp_all

theorem needZeroImm_ok {w : CmdWord} {i j : Instr} (h : needZeroImm w i = .ok j) : immOf w = 0#8 ∧ i = j := by
  rcases needZeroImm_cases w i with ⟨h0, h1⟩ | ⟨-, h1⟩ <;> simp_all

/-- A word whose `imm` is not zero decodes to nothing where the format has no `imm` operand. -/
theorem needZeroImm_packWord_error (a b : BitVec 4) {c : Byte} (h : c ≠ 0#8) (i : Instr) :
    needZeroImm (packWord a b c) i = .error (.immNotZero (packWord a b c)) := by
  unfold needZeroImm
  rw [immOf_packWord]
  exact if_neg h

end Sys2Proof
end

