-- ==== Sys2Proof/Laws/Memory.lean ====
section
/-! SUPPORT. The byte stores: what a read answers after a write, that every operation on a store keeps its canonical form
and its size, and what the bytes below a count are. -/

namespace Sys2Proof.Machine

@[simp] theorem memRead_nil (i : Nat) : memRead [] i = none := rfl

@[simp] theorem memRead_memWrite_same (m : Memory) (i : Nat) (v : Byte) : memRead (memWrite m i v) i = some v := by
  induction m with
  | nil => simp [memWrite, memRead]
  | cons c m ih =>
    obtain ⟨a, b⟩ := c
    simp only [memWrite]
    split
    · simp [memRead]
    · split
      · simp [memRead]
      · simp [memRead, *, Ne.symm]

theorem memRead_memWrite_other (m : Memory) {i j : Nat} (v : Byte) (h : j ≠ i) :
    memRead (memWrite m i v) j = memRead m j := by
  induction m with
  | nil => simp [memWrite, memRead, Ne.symm h]
  | cons c m ih =>
    obtain ⟨a, b⟩ := c
    simp only [memWrite]
    split
    · simp [memRead, Ne.symm h]
    · split
      · subst_vars; simp [memRead, Ne.symm h]
      · simp [memRead, ih]

theorem mem_memWrite (m : Memory) (i : Nat) (v : Byte) {c : Host.Cell} (h : c ∈ memWrite m i v) :
    c = (i, v) ∨ c ∈ m := by
  induction m with
  | nil => simpa [memWrite] using h
  | cons d m ih =>
    obtain ⟨a, b⟩ := d
    simp only [memWrite] at h
    split at h
    · simpa using h
    · split at h
      · rcases List.mem_cons.1 h with h | h <;> simp [h]
      · rcases List.mem_cons.1 h with h | h
        · simp [h]
        · rcases ih h with h | h <;> simp [h]

/-- A write keeps the canonical form. -/
theorem memWrite_wf {m : Memory} (h : m.wf) (i : Nat) (v : Byte) : (memWrite m i v).wf := by
  induction m with
  | nil => simp [memWrite, Memory.wf]
  | cons c m ih =>
    obtain ⟨a, b⟩ := c
    obtain ⟨h₁, h₂⟩ := List.pairwise_cons.1 h
    simp only [memWrite]
    split
    · refine List.pairwise_cons.2 ⟨fun d hd => ?_, h⟩
      rcases List.mem_cons.1 hd with rfl | hd
      · simpa
      · have := h₁ d hd; simp at this ⊢; omega
    · split
      · subst_vars; exact List.pairwise_cons.2 ⟨h₁, h₂⟩
      · refine List.pairwise_cons.2 ⟨fun d hd => ?_, ih h₂⟩
        rcases mem_memWrite m i v hd with rfl | hd
        · simp; omega
        · exact h₁ d hd

/-- A write inside a store's size leaves every cell inside it. -/
theorem memWrite_within {m : Memory} {size : Nat} (h : m.within size) {i : Nat} (hi : i < size) (v : Byte) :
    (memWrite m i v).within size := by
  intro c hc
  rcases mem_memWrite m i v hc with rfl | hc
  · exact hi
  · exact h c hc

/-- In the canonical form, equal reads mean equal stores. -/
theorem memRead_none_of_lt {m : Memory} {i : Nat} (h : ∀ c ∈ m, i < c.1) : memRead m i = none := by
  induction m with
  | nil => rfl
  | cons c m ih =>
    obtain ⟨a, b⟩ := c
    have h0 := h (a, b) (by simp)
    simp only [memRead]
    rw [if_neg (by simp at h0; omega)]
    exact ih fun c hc => h c (by simp [hc])

@[simp] theorem memPrefix_zero (m : Memory) : memPrefix m 0 = some [] := rfl

theorem memPrefix_succ (m : Memory) (n : Nat) {p : List Byte} {b : Byte} (hp : memPrefix m n = some p)
    (hb : memRead m n = some b) : memPrefix m (n + 1) = some (p ++ [b]) := by
  simp [memPrefix, hp, hb]

theorem memPrefix_length {m : Memory} {n : Nat} {p : List Byte} (h : memPrefix m n = some p) : p.length = n := by
  induction n generalizing p with
  | zero => simp_all
  | succ n ih =>
    simp only [memPrefix] at h
    split at h
    · rename_i q b hq hb
      cases h
      simp [ih hq]
    · cases h

/-- The bytes below a count do not see a write at or above it. -/
theorem memPrefix_memWrite_ge (m : Memory) {n i : Nat} (v : Byte) (h : n ≤ i) :
    memPrefix (memWrite m i v) n = memPrefix m n := by
  induction n with
  | zero => rfl
  | succ n ih =>
    simp only [memPrefix, ih (by omega), memRead_memWrite_other m v (show n ≠ i by omega)]

/-- Writing the byte at the count extends the bytes below it by that byte. -/
theorem memPrefix_memWrite_push {m : Memory} {n : Nat} {p : List Byte} (v : Byte) (h : memPrefix m n = some p) :
    memPrefix (memWrite m n v) (n + 1) = some (p ++ [v]) :=
  memPrefix_succ _ _ (by rw [memPrefix_memWrite_ge m v le_rfl, h]) (memRead_memWrite_same m n v)

/-- Bytes below a count are the reads. -/
theorem memPrefix_eq_some_iff {m : Memory} {n : Nat} {p : List Byte} :
    memPrefix m n = some p ↔ p.length = n ∧ ∀ i < n, memRead m i = p[i]? := by
  induction n generalizing p with
  | zero => simp [eq_comm (a := [])]
  | succ n ih =>
    constructor
    · intro h
      refine ⟨memPrefix_length h, ?_⟩
      simp only [memPrefix] at h
      split at h <;> simp at h
      subst h
      rename_i q b hq hb
      obtain ⟨hl, hr⟩ := ih.1 hq
      intro i hi
      by_cases hin : i = n
      · subst hin; rw [hb]; simp [← hl]
      · rw [hr i (by omega), List.getElem?_append_left (by omega)]
    · rintro ⟨hl, hr⟩
      have hsplit : p = p.take n ++ [p[n]] := by simp [← hl]
      rw [hsplit]
      apply memPrefix_succ
      · exact ih.2 ⟨by simp; omega, fun i hi => by rw [hr i (by omega)]; simp [hi]⟩
      · rw [hr n (by omega)]; simp

/-- A shorter prefix of a store that holds a longer one. -/
theorem memPrefix_le {m : Memory} {n k : Nat} {p : List Byte} (h : memPrefix m n = some p) (hk : k ≤ n) :
    memPrefix m k = some (p.take k) := by
  rw [memPrefix_eq_some_iff] at h ⊢
  exact ⟨by simp; omega, fun i hi => by rw [h.2 i (by omega)]; simp [hi]⟩

theorem loadBytes_ok {sp : Space} {m : Memory} {n : Nat} {p : List Byte} (h : memPrefix m n = some p) :
    loadBytes sp m n = .ok p := by simp [loadBytes, h]

theorem loadBytes_error {sp : Space} {m : Memory} {n : Nat} (h : memPrefix m n = none) :
    loadBytes sp m n = .error (.unwrittenByte sp n) := by simp [loadBytes, h]

/-- All that loading bytes can answer. -/
theorem loadBytes_cases (sp : Space) (m : Memory) (n : Nat) :
    (∃ p, memPrefix m n = some p ∧ loadBytes sp m n = .ok p) ∨
      (memPrefix m n = none ∧ loadBytes sp m n = .error (.unwrittenByte sp n)) := by
  cases h : memPrefix m n with
  | none => exact .inr ⟨rfl, loadBytes_error h⟩
  | some p => exact .inl ⟨p, rfl, loadBytes_ok h⟩

theorem checkRoom_ok {sp : Space} {i : Nat} (h : i < sp.size) : checkRoom sp i = .ok () := by simp [checkRoom, h]

theorem checkRoom_error {sp : Space} {i : Nat} (h : sp.size ≤ i) :
    checkRoom sp i = .error (.outsideStore sp i) := by simp [checkRoom]; omega

/-- The stores after reset are canonical, whatever the parameters. -/
theorem resetWith_stores (p : Config.Params) : StoreInv (State.resetWith p) := by
  constructor <;> simp [State.resetWith, Block.reset]

/-- The stores of the reset state are canonical. -/
theorem reset_stores : StoreInv State.reset := resetWith_stores Config.defaults

end Sys2Proof.Machine
end

