-- ==== Sys2Proof/Laws/State.lean ====
section
/-! SUPPORT. What each named update of the state does to each field: one lemma per field, true by unfolding, so that no
proof unfolds a record update. -/

namespace Sys2Proof.Machine

/-! ## setFlag -/

@[simp] theorem setFlag_opr (f : ErrFlag) (s : State) : (setFlag f s).opr = s.opr := rfl
@[simp] theorem setFlag_xora (f : ErrFlag) (s : State) : (setFlag f s).xora = s.xora := rfl
@[simp] theorem setFlag_crca (f : ErrFlag) (s : State) : (setFlag f s).crca = s.crca := rfl
@[simp] theorem setFlag_ch (f : ErrFlag) (s : State) : (setFlag f s).ch = s.ch := rfl
@[simp] theorem setFlag_win (f : ErrFlag) (s : State) : (setFlag f s).win = s.win := rfl
@[simp] theorem setFlag_mspSt (f : ErrFlag) (s : State) : (setFlag f s).mspSt = s.mspSt := rfl
@[simp] theorem setFlag_hdr (f : ErrFlag) (s : State) : (setFlag f s).hdr = s.hdr := rfl
@[simp] theorem setFlag_mspLen (f : ErrFlag) (s : State) : (setFlag f s).mspLen = s.mspLen := rfl
@[simp] theorem setFlag_mspCmd (f : ErrFlag) (s : State) : (setFlag f s).mspCmd = s.mspCmd := rfl
@[simp] theorem setFlag_mspCnt (f : ErrFlag) (s : State) : (setFlag f s).mspCnt = s.mspCnt := rfl
@[simp] theorem setFlag_mspCk (f : ErrFlag) (s : State) : (setFlag f s).mspCk = s.mspCk := rfl
@[simp] theorem setFlag_mspPay (f : ErrFlag) (s : State) : (setFlag f s).mspPay = s.mspPay := rfl
@[simp] theorem setFlag_txCmd (f : ErrFlag) (s : State) : (setFlag f s).txCmd = s.txCmd := rfl
@[simp] theorem setFlag_txN (f : ErrFlag) (s : State) : (setFlag f s).txN = s.txN := rfl
@[simp] theorem setFlag_txOvf (f : ErrFlag) (s : State) : (setFlag f s).txOvf = s.txOvf := rfl
@[simp] theorem setFlag_txb (f : ErrFlag) (s : State) : (setFlag f s).txb = s.txb := rfl
@[simp] theorem setFlag_dn (f : ErrFlag) (s : State) : (setFlag f s).dn = s.dn := rfl
@[simp] theorem setFlag_dOvf (f : ErrFlag) (s : State) : (setFlag f s).dOvf = s.dOvf := rfl
@[simp] theorem setFlag_dbuf (f : ErrFlag) (s : State) : (setFlag f s).dbuf = s.dbuf := rfl
@[simp] theorem setFlag_cbuf (f : ErrFlag) (s : State) : (setFlag f s).cbuf = s.cbuf := rfl
@[simp] theorem setFlag_age (f : ErrFlag) (s : State) : (setFlag f s).age = s.age := rfl
@[simp] theorem setFlag_seen (f : ErrFlag) (s : State) : (setFlag f s).seen = s.seen := rfl
@[simp] theorem setFlag_crAddr (f : ErrFlag) (s : State) : (setFlag f s).crAddr = s.crAddr := rfl
@[simp] theorem setFlag_crMaxlen (f : ErrFlag) (s : State) : (setFlag f s).crMaxlen = s.crMaxlen := rfl
@[simp] theorem setFlag_crRctype (f : ErrFlag) (s : State) : (setFlag f s).crRctype = s.crRctype := rfl
@[simp] theorem setFlag_crMfwin (f : ErrFlag) (s : State) : (setFlag f s).crMfwin = s.crMfwin := rfl
@[simp] theorem setFlag_crErr (f : ErrFlag) (s : State) : (setFlag f s).crErr = s.crErr ||| f.mask := rfl
@[simp] theorem setFlag_params (f : ErrFlag) (s : State) : (setFlag f s).params = s.params := rfl
@[simp] theorem setFlag_port (f : ErrFlag) (s : State) : (setFlag f s).port = s.port := rfl
@[simp] theorem setFlag_events (f : ErrFlag) (s : State) : (setFlag f s).events = s.events := rfl

/-! ## clearFlags -/

@[simp] theorem clearFlags_opr (m : Byte) (s : State) : (clearFlags m s).opr = s.opr := rfl
@[simp] theorem clearFlags_xora (m : Byte) (s : State) : (clearFlags m s).xora = s.xora := rfl
@[simp] theorem clearFlags_crca (m : Byte) (s : State) : (clearFlags m s).crca = s.crca := rfl
@[simp] theorem clearFlags_ch (m : Byte) (s : State) : (clearFlags m s).ch = s.ch := rfl
@[simp] theorem clearFlags_win (m : Byte) (s : State) : (clearFlags m s).win = s.win := rfl
@[simp] theorem clearFlags_mspSt (m : Byte) (s : State) : (clearFlags m s).mspSt = s.mspSt := rfl
@[simp] theorem clearFlags_hdr (m : Byte) (s : State) : (clearFlags m s).hdr = s.hdr := rfl
@[simp] theorem clearFlags_mspLen (m : Byte) (s : State) : (clearFlags m s).mspLen = s.mspLen := rfl
@[simp] theorem clearFlags_mspCmd (m : Byte) (s : State) : (clearFlags m s).mspCmd = s.mspCmd := rfl
@[simp] theorem clearFlags_mspCnt (m : Byte) (s : State) : (clearFlags m s).mspCnt = s.mspCnt := rfl
@[simp] theorem clearFlags_mspCk (m : Byte) (s : State) : (clearFlags m s).mspCk = s.mspCk := rfl
@[simp] theorem clearFlags_mspPay (m : Byte) (s : State) : (clearFlags m s).mspPay = s.mspPay := rfl
@[simp] theorem clearFlags_txCmd (m : Byte) (s : State) : (clearFlags m s).txCmd = s.txCmd := rfl
@[simp] theorem clearFlags_txN (m : Byte) (s : State) : (clearFlags m s).txN = s.txN := rfl
@[simp] theorem clearFlags_txOvf (m : Byte) (s : State) : (clearFlags m s).txOvf = s.txOvf := rfl
@[simp] theorem clearFlags_txb (m : Byte) (s : State) : (clearFlags m s).txb = s.txb := rfl
@[simp] theorem clearFlags_dn (m : Byte) (s : State) : (clearFlags m s).dn = s.dn := rfl
@[simp] theorem clearFlags_dOvf (m : Byte) (s : State) : (clearFlags m s).dOvf = s.dOvf := rfl
@[simp] theorem clearFlags_dbuf (m : Byte) (s : State) : (clearFlags m s).dbuf = s.dbuf := rfl
@[simp] theorem clearFlags_cbuf (m : Byte) (s : State) : (clearFlags m s).cbuf = s.cbuf := rfl
@[simp] theorem clearFlags_age (m : Byte) (s : State) : (clearFlags m s).age = s.age := rfl
@[simp] theorem clearFlags_seen (m : Byte) (s : State) : (clearFlags m s).seen = s.seen := rfl
@[simp] theorem clearFlags_crAddr (m : Byte) (s : State) : (clearFlags m s).crAddr = s.crAddr := rfl
@[simp] theorem clearFlags_crMaxlen (m : Byte) (s : State) : (clearFlags m s).crMaxlen = s.crMaxlen := rfl
@[simp] theorem clearFlags_crRctype (m : Byte) (s : State) : (clearFlags m s).crRctype = s.crRctype := rfl
@[simp] theorem clearFlags_crMfwin (m : Byte) (s : State) : (clearFlags m s).crMfwin = s.crMfwin := rfl
@[simp] theorem clearFlags_crErr (m : Byte) (s : State) : (clearFlags m s).crErr = s.crErr &&& ~~~m := rfl
@[simp] theorem clearFlags_params (m : Byte) (s : State) : (clearFlags m s).params = s.params := rfl
@[simp] theorem clearFlags_port (m : Byte) (s : State) : (clearFlags m s).port = s.port := rfl
@[simp] theorem clearFlags_events (m : Byte) (s : State) : (clearFlags m s).events = s.events := rfl

/-! ## emit -/

@[simp] theorem emit_opr (e : Event) (s : State) : (emit e s).opr = s.opr := rfl
@[simp] theorem emit_xora (e : Event) (s : State) : (emit e s).xora = s.xora := rfl
@[simp] theorem emit_crca (e : Event) (s : State) : (emit e s).crca = s.crca := rfl
@[simp] theorem emit_ch (e : Event) (s : State) : (emit e s).ch = s.ch := rfl
@[simp] theorem emit_win (e : Event) (s : State) : (emit e s).win = s.win := rfl
@[simp] theorem emit_mspSt (e : Event) (s : State) : (emit e s).mspSt = s.mspSt := rfl
@[simp] theorem emit_hdr (e : Event) (s : State) : (emit e s).hdr = s.hdr := rfl
@[simp] theorem emit_mspLen (e : Event) (s : State) : (emit e s).mspLen = s.mspLen := rfl
@[simp] theorem emit_mspCmd (e : Event) (s : State) : (emit e s).mspCmd = s.mspCmd := rfl
@[simp] theorem emit_mspCnt (e : Event) (s : State) : (emit e s).mspCnt = s.mspCnt := rfl
@[simp] theorem emit_mspCk (e : Event) (s : State) : (emit e s).mspCk = s.mspCk := rfl
@[simp] theorem emit_mspPay (e : Event) (s : State) : (emit e s).mspPay = s.mspPay := rfl
@[simp] theorem emit_txCmd (e : Event) (s : State) : (emit e s).txCmd = s.txCmd := rfl
@[simp] theorem emit_txN (e : Event) (s : State) : (emit e s).txN = s.txN := rfl
@[simp] theorem emit_txOvf (e : Event) (s : State) : (emit e s).txOvf = s.txOvf := rfl
@[simp] theorem emit_txb (e : Event) (s : State) : (emit e s).txb = s.txb := rfl
@[simp] theorem emit_dn (e : Event) (s : State) : (emit e s).dn = s.dn := rfl
@[simp] theorem emit_dOvf (e : Event) (s : State) : (emit e s).dOvf = s.dOvf := rfl
@[simp] theorem emit_dbuf (e : Event) (s : State) : (emit e s).dbuf = s.dbuf := rfl
@[simp] theorem emit_cbuf (e : Event) (s : State) : (emit e s).cbuf = s.cbuf := rfl
@[simp] theorem emit_age (e : Event) (s : State) : (emit e s).age = s.age := rfl
@[simp] theorem emit_seen (e : Event) (s : State) : (emit e s).seen = s.seen := rfl
@[simp] theorem emit_crAddr (e : Event) (s : State) : (emit e s).crAddr = s.crAddr := rfl
@[simp] theorem emit_crMaxlen (e : Event) (s : State) : (emit e s).crMaxlen = s.crMaxlen := rfl
@[simp] theorem emit_crRctype (e : Event) (s : State) : (emit e s).crRctype = s.crRctype := rfl
@[simp] theorem emit_crMfwin (e : Event) (s : State) : (emit e s).crMfwin = s.crMfwin := rfl
@[simp] theorem emit_crErr (e : Event) (s : State) : (emit e s).crErr = s.crErr := rfl
@[simp] theorem emit_params (e : Event) (s : State) : (emit e s).params = s.params := rfl
@[simp] theorem emit_port (e : Event) (s : State) : (emit e s).port = s.port := rfl
@[simp] theorem emit_events (e : Event) (s : State) : (emit e s).events = s.events ++ [e] := rfl

/-! ## raise -/

@[simp] theorem raise_opr (e : ErrorCode) (s : State) : (raise e s).opr = s.opr := rfl
@[simp] theorem raise_xora (e : ErrorCode) (s : State) : (raise e s).xora = s.xora := rfl
@[simp] theorem raise_crca (e : ErrorCode) (s : State) : (raise e s).crca = s.crca := rfl
@[simp] theorem raise_ch (e : ErrorCode) (s : State) : (raise e s).ch = s.ch := rfl
@[simp] theorem raise_win (e : ErrorCode) (s : State) : (raise e s).win = s.win := rfl
@[simp] theorem raise_mspSt (e : ErrorCode) (s : State) : (raise e s).mspSt = s.mspSt := rfl
@[simp] theorem raise_hdr (e : ErrorCode) (s : State) : (raise e s).hdr = s.hdr := rfl
@[simp] theorem raise_mspLen (e : ErrorCode) (s : State) : (raise e s).mspLen = s.mspLen := rfl
@[simp] theorem raise_mspCmd (e : ErrorCode) (s : State) : (raise e s).mspCmd = s.mspCmd := rfl
@[simp] theorem raise_mspCnt (e : ErrorCode) (s : State) : (raise e s).mspCnt = s.mspCnt := rfl
@[simp] theorem raise_mspCk (e : ErrorCode) (s : State) : (raise e s).mspCk = s.mspCk := rfl
@[simp] theorem raise_mspPay (e : ErrorCode) (s : State) : (raise e s).mspPay = s.mspPay := rfl
@[simp] theorem raise_txCmd (e : ErrorCode) (s : State) : (raise e s).txCmd = s.txCmd := rfl
@[simp] theorem raise_txN (e : ErrorCode) (s : State) : (raise e s).txN = s.txN := rfl
@[simp] theorem raise_txOvf (e : ErrorCode) (s : State) : (raise e s).txOvf = s.txOvf := rfl
@[simp] theorem raise_txb (e : ErrorCode) (s : State) : (raise e s).txb = s.txb := rfl
@[simp] theorem raise_dn (e : ErrorCode) (s : State) : (raise e s).dn = s.dn := rfl
@[simp] theorem raise_dOvf (e : ErrorCode) (s : State) : (raise e s).dOvf = s.dOvf := rfl
@[simp] theorem raise_dbuf (e : ErrorCode) (s : State) : (raise e s).dbuf = s.dbuf := rfl
@[simp] theorem raise_cbuf (e : ErrorCode) (s : State) : (raise e s).cbuf = s.cbuf := rfl
@[simp] theorem raise_age (e : ErrorCode) (s : State) : (raise e s).age = s.age := rfl
@[simp] theorem raise_seen (e : ErrorCode) (s : State) : (raise e s).seen = s.seen := rfl
@[simp] theorem raise_crAddr (e : ErrorCode) (s : State) : (raise e s).crAddr = s.crAddr := rfl
@[simp] theorem raise_crMaxlen (e : ErrorCode) (s : State) : (raise e s).crMaxlen = s.crMaxlen := rfl
@[simp] theorem raise_crRctype (e : ErrorCode) (s : State) : (raise e s).crRctype = s.crRctype := rfl
@[simp] theorem raise_crMfwin (e : ErrorCode) (s : State) : (raise e s).crMfwin = s.crMfwin := rfl
@[simp] theorem raise_crErr (e : ErrorCode) (s : State) : (raise e s).crErr = s.crErr ||| e.flag.mask := rfl
@[simp] theorem raise_params (e : ErrorCode) (s : State) : (raise e s).params = s.params := rfl
@[simp] theorem raise_port (e : ErrorCode) (s : State) : (raise e s).port = s.port := rfl
@[simp] theorem raise_events (e : ErrorCode) (s : State) : (raise e s).events = s.events ++ [.err e] := rfl

/-! ## dropOne -/

@[simp] theorem dropOne_opr (f : ErrFlag) (s : State) : (dropOne f s).opr = s.opr := rfl
@[simp] theorem dropOne_xora (f : ErrFlag) (s : State) : (dropOne f s).xora = s.xora := rfl
@[simp] theorem dropOne_crca (f : ErrFlag) (s : State) : (dropOne f s).crca = s.crca := rfl
@[simp] theorem dropOne_ch (f : ErrFlag) (s : State) : (dropOne f s).ch = s.ch := rfl
@[simp] theorem dropOne_win (f : ErrFlag) (s : State) : (dropOne f s).win = s.win := rfl
@[simp] theorem dropOne_mspSt (f : ErrFlag) (s : State) : (dropOne f s).mspSt = s.mspSt := rfl
@[simp] theorem dropOne_hdr (f : ErrFlag) (s : State) : (dropOne f s).hdr = s.hdr := rfl
@[simp] theorem dropOne_mspLen (f : ErrFlag) (s : State) : (dropOne f s).mspLen = s.mspLen := rfl
@[simp] theorem dropOne_mspCmd (f : ErrFlag) (s : State) : (dropOne f s).mspCmd = s.mspCmd := rfl
@[simp] theorem dropOne_mspCnt (f : ErrFlag) (s : State) : (dropOne f s).mspCnt = s.mspCnt := rfl
@[simp] theorem dropOne_mspCk (f : ErrFlag) (s : State) : (dropOne f s).mspCk = s.mspCk := rfl
@[simp] theorem dropOne_mspPay (f : ErrFlag) (s : State) : (dropOne f s).mspPay = s.mspPay := rfl
@[simp] theorem dropOne_txCmd (f : ErrFlag) (s : State) : (dropOne f s).txCmd = s.txCmd := rfl
@[simp] theorem dropOne_txN (f : ErrFlag) (s : State) : (dropOne f s).txN = s.txN := rfl
@[simp] theorem dropOne_txOvf (f : ErrFlag) (s : State) : (dropOne f s).txOvf = s.txOvf := rfl
@[simp] theorem dropOne_txb (f : ErrFlag) (s : State) : (dropOne f s).txb = s.txb := rfl
@[simp] theorem dropOne_dn (f : ErrFlag) (s : State) : (dropOne f s).dn = s.dn := rfl
@[simp] theorem dropOne_dOvf (f : ErrFlag) (s : State) : (dropOne f s).dOvf = s.dOvf := rfl
@[simp] theorem dropOne_dbuf (f : ErrFlag) (s : State) : (dropOne f s).dbuf = s.dbuf := rfl
@[simp] theorem dropOne_cbuf (f : ErrFlag) (s : State) : (dropOne f s).cbuf = s.cbuf.drop 1 := rfl
@[simp] theorem dropOne_age (f : ErrFlag) (s : State) : (dropOne f s).age = s.age := rfl
@[simp] theorem dropOne_seen (f : ErrFlag) (s : State) : (dropOne f s).seen = s.seen := rfl
@[simp] theorem dropOne_crAddr (f : ErrFlag) (s : State) : (dropOne f s).crAddr = s.crAddr := rfl
@[simp] theorem dropOne_crMaxlen (f : ErrFlag) (s : State) : (dropOne f s).crMaxlen = s.crMaxlen := rfl
@[simp] theorem dropOne_crRctype (f : ErrFlag) (s : State) : (dropOne f s).crRctype = s.crRctype := rfl
@[simp] theorem dropOne_crMfwin (f : ErrFlag) (s : State) : (dropOne f s).crMfwin = s.crMfwin := rfl
@[simp] theorem dropOne_crErr (f : ErrFlag) (s : State) : (dropOne f s).crErr = s.crErr ||| f.mask := rfl
@[simp] theorem dropOne_params (f : ErrFlag) (s : State) : (dropOne f s).params = s.params := rfl
@[simp] theorem dropOne_port (f : ErrFlag) (s : State) : (dropOne f s).port = s.port := rfl
@[simp] theorem dropOne_events (f : ErrFlag) (s : State) : (dropOne f s).events = s.events := rfl

/-! ## mspDropFrame -/

@[simp] theorem mspDropFrame_opr (s : State) : (mspDropFrame s).opr = s.opr := rfl
@[simp] theorem mspDropFrame_xora (s : State) : (mspDropFrame s).xora = s.xora := rfl
@[simp] theorem mspDropFrame_crca (s : State) : (mspDropFrame s).crca = s.crca := rfl
@[simp] theorem mspDropFrame_ch (s : State) : (mspDropFrame s).ch = s.ch := rfl
@[simp] theorem mspDropFrame_win (s : State) : (mspDropFrame s).win = s.win := rfl
@[simp] theorem mspDropFrame_mspSt (s : State) : (mspDropFrame s).mspSt = .seekHeader := rfl
@[simp] theorem mspDropFrame_hdr (s : State) : (mspDropFrame s).hdr = 0#2 := rfl
@[simp] theorem mspDropFrame_mspLen (s : State) : (mspDropFrame s).mspLen = 0#8 := rfl
@[simp] theorem mspDropFrame_mspCmd (s : State) : (mspDropFrame s).mspCmd = 0#8 := rfl
@[simp] theorem mspDropFrame_mspCnt (s : State) : (mspDropFrame s).mspCnt = 0#8 := rfl
@[simp] theorem mspDropFrame_mspCk (s : State) : (mspDropFrame s).mspCk = 0#8 := rfl
@[simp] theorem mspDropFrame_mspPay (s : State) : (mspDropFrame s).mspPay = s.mspPay := rfl
@[simp] theorem mspDropFrame_txCmd (s : State) : (mspDropFrame s).txCmd = s.txCmd := rfl
@[simp] theorem mspDropFrame_txN (s : State) : (mspDropFrame s).txN = s.txN := rfl
@[simp] theorem mspDropFrame_txOvf (s : State) : (mspDropFrame s).txOvf = s.txOvf := rfl
@[simp] theorem mspDropFrame_txb (s : State) : (mspDropFrame s).txb = s.txb := rfl
@[simp] theorem mspDropFrame_dn (s : State) : (mspDropFrame s).dn = s.dn := rfl
@[simp] theorem mspDropFrame_dOvf (s : State) : (mspDropFrame s).dOvf = s.dOvf := rfl
@[simp] theorem mspDropFrame_dbuf (s : State) : (mspDropFrame s).dbuf = s.dbuf := rfl
@[simp] theorem mspDropFrame_cbuf (s : State) : (mspDropFrame s).cbuf = s.cbuf := rfl
@[simp] theorem mspDropFrame_age (s : State) : (mspDropFrame s).age = s.age := rfl
@[simp] theorem mspDropFrame_seen (s : State) : (mspDropFrame s).seen = s.seen := rfl
@[simp] theorem mspDropFrame_crAddr (s : State) : (mspDropFrame s).crAddr = s.crAddr := rfl
@[simp] theorem mspDropFrame_crMaxlen (s : State) : (mspDropFrame s).crMaxlen = s.crMaxlen := rfl
@[simp] theorem mspDropFrame_crRctype (s : State) : (mspDropFrame s).crRctype = s.crRctype := rfl
@[simp] theorem mspDropFrame_crMfwin (s : State) : (mspDropFrame s).crMfwin = s.crMfwin := rfl
@[simp] theorem mspDropFrame_crErr (s : State) : (mspDropFrame s).crErr = s.crErr := rfl
@[simp] theorem mspDropFrame_params (s : State) : (mspDropFrame s).params = s.params := rfl
@[simp] theorem mspDropFrame_port (s : State) : (mspDropFrame s).port = s.port := rfl
@[simp] theorem mspDropFrame_events (s : State) : (mspDropFrame s).events = s.events := rfl

/-! ## encRelease -/

@[simp] theorem encRelease_opr (s : State) : (encRelease s).opr = s.opr := rfl
@[simp] theorem encRelease_xora (s : State) : (encRelease s).xora = s.xora := rfl
@[simp] theorem encRelease_crca (s : State) : (encRelease s).crca = s.crca := rfl
@[simp] theorem encRelease_ch (s : State) : (encRelease s).ch = s.ch := rfl
@[simp] theorem encRelease_win (s : State) : (encRelease s).win = s.win := rfl
@[simp] theorem encRelease_mspSt (s : State) : (encRelease s).mspSt = s.mspSt := rfl
@[simp] theorem encRelease_hdr (s : State) : (encRelease s).hdr = s.hdr := rfl
@[simp] theorem encRelease_mspLen (s : State) : (encRelease s).mspLen = s.mspLen := rfl
@[simp] theorem encRelease_mspCmd (s : State) : (encRelease s).mspCmd = s.mspCmd := rfl
@[simp] theorem encRelease_mspCnt (s : State) : (encRelease s).mspCnt = s.mspCnt := rfl
@[simp] theorem encRelease_mspCk (s : State) : (encRelease s).mspCk = s.mspCk := rfl
@[simp] theorem encRelease_mspPay (s : State) : (encRelease s).mspPay = s.mspPay := rfl
@[simp] theorem encRelease_txCmd (s : State) : (encRelease s).txCmd = s.txCmd := rfl
@[simp] theorem encRelease_txN (s : State) : (encRelease s).txN = 0#8 := rfl
@[simp] theorem encRelease_txOvf (s : State) : (encRelease s).txOvf = false := rfl
@[simp] theorem encRelease_txb (s : State) : (encRelease s).txb = s.txb := rfl
@[simp] theorem encRelease_dn (s : State) : (encRelease s).dn = s.dn := rfl
@[simp] theorem encRelease_dOvf (s : State) : (encRelease s).dOvf = s.dOvf := rfl
@[simp] theorem encRelease_dbuf (s : State) : (encRelease s).dbuf = s.dbuf := rfl
@[simp] theorem encRelease_cbuf (s : State) : (encRelease s).cbuf = s.cbuf := rfl
@[simp] theorem encRelease_age (s : State) : (encRelease s).age = s.age := rfl
@[simp] theorem encRelease_seen (s : State) : (encRelease s).seen = s.seen := rfl
@[simp] theorem encRelease_crAddr (s : State) : (encRelease s).crAddr = s.crAddr := rfl
@[simp] theorem encRelease_crMaxlen (s : State) : (encRelease s).crMaxlen = s.crMaxlen := rfl
@[simp] theorem encRelease_crRctype (s : State) : (encRelease s).crRctype = s.crRctype := rfl
@[simp] theorem encRelease_crMfwin (s : State) : (encRelease s).crMfwin = s.crMfwin := rfl
@[simp] theorem encRelease_crErr (s : State) : (encRelease s).crErr = s.crErr := rfl
@[simp] theorem encRelease_params (s : State) : (encRelease s).params = s.params := rfl
@[simp] theorem encRelease_port (s : State) : (encRelease s).port = s.port := rfl
@[simp] theorem encRelease_events (s : State) : (encRelease s).events = s.events := rfl

/-! ## decRelease -/

@[simp] theorem decRelease_opr (s : State) : (decRelease s).opr = s.opr := rfl
@[simp] theorem decRelease_xora (s : State) : (decRelease s).xora = s.xora := rfl
@[simp] theorem decRelease_crca (s : State) : (decRelease s).crca = s.crca := rfl
@[simp] theorem decRelease_ch (s : State) : (decRelease s).ch = s.ch := rfl
@[simp] theorem decRelease_win (s : State) : (decRelease s).win = s.win := rfl
@[simp] theorem decRelease_mspSt (s : State) : (decRelease s).mspSt = s.mspSt := rfl
@[simp] theorem decRelease_hdr (s : State) : (decRelease s).hdr = s.hdr := rfl
@[simp] theorem decRelease_mspLen (s : State) : (decRelease s).mspLen = s.mspLen := rfl
@[simp] theorem decRelease_mspCmd (s : State) : (decRelease s).mspCmd = s.mspCmd := rfl
@[simp] theorem decRelease_mspCnt (s : State) : (decRelease s).mspCnt = s.mspCnt := rfl
@[simp] theorem decRelease_mspCk (s : State) : (decRelease s).mspCk = s.mspCk := rfl
@[simp] theorem decRelease_mspPay (s : State) : (decRelease s).mspPay = s.mspPay := rfl
@[simp] theorem decRelease_txCmd (s : State) : (decRelease s).txCmd = s.txCmd := rfl
@[simp] theorem decRelease_txN (s : State) : (decRelease s).txN = s.txN := rfl
@[simp] theorem decRelease_txOvf (s : State) : (decRelease s).txOvf = s.txOvf := rfl
@[simp] theorem decRelease_txb (s : State) : (decRelease s).txb = s.txb := rfl
@[simp] theorem decRelease_dn (s : State) : (decRelease s).dn = 0#5 := rfl
@[simp] theorem decRelease_dOvf (s : State) : (decRelease s).dOvf = false := rfl
@[simp] theorem decRelease_dbuf (s : State) : (decRelease s).dbuf = s.dbuf := rfl
@[simp] theorem decRelease_cbuf (s : State) : (decRelease s).cbuf = s.cbuf := rfl
@[simp] theorem decRelease_age (s : State) : (decRelease s).age = s.age := rfl
@[simp] theorem decRelease_seen (s : State) : (decRelease s).seen = s.seen := rfl
@[simp] theorem decRelease_crAddr (s : State) : (decRelease s).crAddr = s.crAddr := rfl
@[simp] theorem decRelease_crMaxlen (s : State) : (decRelease s).crMaxlen = s.crMaxlen := rfl
@[simp] theorem decRelease_crRctype (s : State) : (decRelease s).crRctype = s.crRctype := rfl
@[simp] theorem decRelease_crMfwin (s : State) : (decRelease s).crMfwin = s.crMfwin := rfl
@[simp] theorem decRelease_crErr (s : State) : (decRelease s).crErr = s.crErr := rfl
@[simp] theorem decRelease_params (s : State) : (decRelease s).params = s.params := rfl
@[simp] theorem decRelease_port (s : State) : (decRelease s).port = s.port := rfl
@[simp] theorem decRelease_events (s : State) : (decRelease s).events = s.events := rfl

/-! ## issueNext -/

@[simp] theorem issueNext_opr (w : CmdWord) (s : State) : (issueNext w s).opr = s.opr := rfl
@[simp] theorem issueNext_xora (w : CmdWord) (s : State) : (issueNext w s).xora = s.xora := rfl
@[simp] theorem issueNext_crca (w : CmdWord) (s : State) : (issueNext w s).crca = s.crca := rfl
@[simp] theorem issueNext_ch (w : CmdWord) (s : State) : (issueNext w s).ch = s.ch := rfl
@[simp] theorem issueNext_win (w : CmdWord) (s : State) : (issueNext w s).win = s.win := rfl
@[simp] theorem issueNext_mspSt (w : CmdWord) (s : State) : (issueNext w s).mspSt = s.mspSt := rfl
@[simp] theorem issueNext_hdr (w : CmdWord) (s : State) : (issueNext w s).hdr = s.hdr := rfl
@[simp] theorem issueNext_mspLen (w : CmdWord) (s : State) : (issueNext w s).mspLen = s.mspLen := rfl
@[simp] theorem issueNext_mspCmd (w : CmdWord) (s : State) : (issueNext w s).mspCmd = s.mspCmd := rfl
@[simp] theorem issueNext_mspCnt (w : CmdWord) (s : State) : (issueNext w s).mspCnt = s.mspCnt := rfl
@[simp] theorem issueNext_mspCk (w : CmdWord) (s : State) : (issueNext w s).mspCk = s.mspCk := rfl
@[simp] theorem issueNext_mspPay (w : CmdWord) (s : State) : (issueNext w s).mspPay = s.mspPay := rfl
@[simp] theorem issueNext_txCmd (w : CmdWord) (s : State) : (issueNext w s).txCmd = s.txCmd := rfl
@[simp] theorem issueNext_txN (w : CmdWord) (s : State) : (issueNext w s).txN = s.txN := rfl
@[simp] theorem issueNext_txOvf (w : CmdWord) (s : State) : (issueNext w s).txOvf = s.txOvf := rfl
@[simp] theorem issueNext_txb (w : CmdWord) (s : State) : (issueNext w s).txb = s.txb := rfl
@[simp] theorem issueNext_dn (w : CmdWord) (s : State) : (issueNext w s).dn = s.dn := rfl
@[simp] theorem issueNext_dOvf (w : CmdWord) (s : State) : (issueNext w s).dOvf = s.dOvf := rfl
@[simp] theorem issueNext_dbuf (w : CmdWord) (s : State) : (issueNext w s).dbuf = s.dbuf := rfl
@[simp] theorem issueNext_cbuf (w : CmdWord) (s : State) : (issueNext w s).cbuf = s.cbuf := rfl
@[simp] theorem issueNext_age (w : CmdWord) (s : State) : (issueNext w s).age = s.age := rfl
@[simp] theorem issueNext_seen (w : CmdWord) (s : State) : (issueNext w s).seen = s.seen := rfl
@[simp] theorem issueNext_crAddr (w : CmdWord) (s : State) : (issueNext w s).crAddr = s.crAddr := rfl
@[simp] theorem issueNext_crMaxlen (w : CmdWord) (s : State) : (issueNext w s).crMaxlen = s.crMaxlen := rfl
@[simp] theorem issueNext_crRctype (w : CmdWord) (s : State) : (issueNext w s).crRctype = s.crRctype := rfl
@[simp] theorem issueNext_crMfwin (w : CmdWord) (s : State) : (issueNext w s).crMfwin = s.crMfwin := rfl
@[simp] theorem issueNext_crErr (w : CmdWord) (s : State) : (issueNext w s).crErr = s.crErr := rfl
@[simp] theorem issueNext_params (w : CmdWord) (s : State) : (issueNext w s).params = s.params := rfl
@[simp] theorem issueNext_port (w : CmdWord) (s : State) : (issueNext w s).port = w :: s.port := rfl
@[simp] theorem issueNext_events (w : CmdWord) (s : State) : (issueNext w s).events = s.events := rfl

/-! ## applyFilters -/

@[simp] theorem applyFilters_opr (us : Vector Val 16) (s : State) :
    (applyFilters us s).opr = s.opr := by simp only [applyFilters]
@[simp] theorem applyFilters_xora (us : Vector Val 16) (s : State) :
    (applyFilters us s).xora = s.xora := by simp only [applyFilters]
@[simp] theorem applyFilters_crca (us : Vector Val 16) (s : State) :
    (applyFilters us s).crca = s.crca := by simp only [applyFilters]
@[simp] theorem applyFilters_mspSt (us : Vector Val 16) (s : State) :
    (applyFilters us s).mspSt = s.mspSt := by simp only [applyFilters]
@[simp] theorem applyFilters_hdr (us : Vector Val 16) (s : State) :
    (applyFilters us s).hdr = s.hdr := by simp only [applyFilters]
@[simp] theorem applyFilters_mspLen (us : Vector Val 16) (s : State) :
    (applyFilters us s).mspLen = s.mspLen := by simp only [applyFilters]
@[simp] theorem applyFilters_mspCmd (us : Vector Val 16) (s : State) :
    (applyFilters us s).mspCmd = s.mspCmd := by simp only [applyFilters]
@[simp] theorem applyFilters_mspCnt (us : Vector Val 16) (s : State) :
    (applyFilters us s).mspCnt = s.mspCnt := by simp only [applyFilters]
@[simp] theorem applyFilters_mspCk (us : Vector Val 16) (s : State) :
    (applyFilters us s).mspCk = s.mspCk := by simp only [applyFilters]
@[simp] theorem applyFilters_mspPay (us : Vector Val 16) (s : State) :
    (applyFilters us s).mspPay = s.mspPay := by simp only [applyFilters]
@[simp] theorem applyFilters_txCmd (us : Vector Val 16) (s : State) :
    (applyFilters us s).txCmd = s.txCmd := by simp only [applyFilters]
@[simp] theorem applyFilters_txN (us : Vector Val 16) (s : State) :
    (applyFilters us s).txN = s.txN := by simp only [applyFilters]
@[simp] theorem applyFilters_txOvf (us : Vector Val 16) (s : State) :
    (applyFilters us s).txOvf = s.txOvf := by simp only [applyFilters]
@[simp] theorem applyFilters_txb (us : Vector Val 16) (s : State) :
    (applyFilters us s).txb = s.txb := by simp only [applyFilters]
@[simp] theorem applyFilters_dn (us : Vector Val 16) (s : State) :
    (applyFilters us s).dn = s.dn := by simp only [applyFilters]
@[simp] theorem applyFilters_dOvf (us : Vector Val 16) (s : State) :
    (applyFilters us s).dOvf = s.dOvf := by simp only [applyFilters]
@[simp] theorem applyFilters_dbuf (us : Vector Val 16) (s : State) :
    (applyFilters us s).dbuf = s.dbuf := by simp only [applyFilters]
@[simp] theorem applyFilters_cbuf (us : Vector Val 16) (s : State) :
    (applyFilters us s).cbuf = s.cbuf := by simp only [applyFilters]
@[simp] theorem applyFilters_age (us : Vector Val 16) (s : State) :
    (applyFilters us s).age = s.age := by simp only [applyFilters]
@[simp] theorem applyFilters_seen (us : Vector Val 16) (s : State) :
    (applyFilters us s).seen = s.seen := by simp only [applyFilters]
@[simp] theorem applyFilters_crAddr (us : Vector Val 16) (s : State) :
    (applyFilters us s).crAddr = s.crAddr := by simp only [applyFilters]
@[simp] theorem applyFilters_crMaxlen (us : Vector Val 16) (s : State) :
    (applyFilters us s).crMaxlen = s.crMaxlen := by simp only [applyFilters]
@[simp] theorem applyFilters_crRctype (us : Vector Val 16) (s : State) :
    (applyFilters us s).crRctype = s.crRctype := by simp only [applyFilters]
@[simp] theorem applyFilters_crMfwin (us : Vector Val 16) (s : State) :
    (applyFilters us s).crMfwin = s.crMfwin := by simp only [applyFilters]
@[simp] theorem applyFilters_crErr (us : Vector Val 16) (s : State) :
    (applyFilters us s).crErr = s.crErr := by simp only [applyFilters]
@[simp] theorem applyFilters_params (us : Vector Val 16) (s : State) :
    (applyFilters us s).params = s.params := by simp only [applyFilters]
@[simp] theorem applyFilters_port (us : Vector Val 16) (s : State) :
    (applyFilters us s).port = s.port := by simp only [applyFilters]
@[simp] theorem applyFilters_events (us : Vector Val 16) (s : State) :
    (applyFilters us s).events = s.events := by simp only [applyFilters]

/-! ## Reset: every field of the block at the value of R46's table -/

@[simp] theorem Block.reset_opr (p : Config.Params) : (Block.reset p).opr = 0x0000#16 := rfl
@[simp] theorem Block.reset_xora (p : Config.Params) : (Block.reset p).xora = 0x00#8 := rfl
@[simp] theorem Block.reset_crca (p : Config.Params) : (Block.reset p).crca = 0x00#8 := rfl
@[simp] theorem Block.reset_ch (p : Config.Params) : (Block.reset p).ch = Vector.replicate 16 Config.chDefault := rfl
@[simp] theorem Block.reset_win (p : Config.Params) : (Block.reset p).win = Vector.replicate 16 [] := rfl
@[simp] theorem Block.reset_mspSt (p : Config.Params) : (Block.reset p).mspSt = .seekHeader := rfl
@[simp] theorem Block.reset_hdr (p : Config.Params) : (Block.reset p).hdr = 0#2 := rfl
@[simp] theorem Block.reset_mspLen (p : Config.Params) : (Block.reset p).mspLen = 0#8 := rfl
@[simp] theorem Block.reset_mspCmd (p : Config.Params) : (Block.reset p).mspCmd = 0#8 := rfl
@[simp] theorem Block.reset_mspCnt (p : Config.Params) : (Block.reset p).mspCnt = 0#8 := rfl
@[simp] theorem Block.reset_mspCk (p : Config.Params) : (Block.reset p).mspCk = 0#8 := rfl
@[simp] theorem Block.reset_mspPay (p : Config.Params) : (Block.reset p).mspPay = [] := rfl
@[simp] theorem Block.reset_txCmd (p : Config.Params) : (Block.reset p).txCmd = 0x00#8 := rfl
@[simp] theorem Block.reset_txN (p : Config.Params) : (Block.reset p).txN = 0#8 := rfl
@[simp] theorem Block.reset_txOvf (p : Config.Params) : (Block.reset p).txOvf = false := rfl
@[simp] theorem Block.reset_txb (p : Config.Params) : (Block.reset p).txb = [] := rfl
@[simp] theorem Block.reset_dn (p : Config.Params) : (Block.reset p).dn = 0#5 := rfl
@[simp] theorem Block.reset_dOvf (p : Config.Params) : (Block.reset p).dOvf = false := rfl
@[simp] theorem Block.reset_dbuf (p : Config.Params) : (Block.reset p).dbuf = [] := rfl
@[simp] theorem Block.reset_cbuf (p : Config.Params) : (Block.reset p).cbuf = [] := rfl
@[simp] theorem Block.reset_age (p : Config.Params) : (Block.reset p).age = 0 := rfl
@[simp] theorem Block.reset_seen (p : Config.Params) : (Block.reset p).seen = false := rfl
@[simp] theorem Block.reset_crAddr (p : Config.Params) : (Block.reset p).crAddr = p.addrRst := rfl
@[simp] theorem Block.reset_crMaxlen (p : Config.Params) : (Block.reset p).crMaxlen = p.maxlenRst := rfl
@[simp] theorem Block.reset_crRctype (p : Config.Params) : (Block.reset p).crRctype = p.rctypeRst := rfl
@[simp] theorem Block.reset_crMfwin (p : Config.Params) : (Block.reset p).crMfwin = Config.mfWinRst := rfl
@[simp] theorem Block.reset_crErr (p : Config.Params) : (Block.reset p).crErr = 0x00#8 := rfl

@[simp] theorem State.resetWith_toBlock (p : Config.Params) : (State.resetWith p).toBlock = Block.reset p := rfl
@[simp] theorem State.resetWith_params (p : Config.Params) : (State.resetWith p).params = p := rfl
@[simp] theorem State.resetWith_port (p : Config.Params) : (State.resetWith p).port = [] := rfl
@[simp] theorem State.resetWith_events (p : Config.Params) : (State.resetWith p).events = [] := rfl
theorem State.reset_eq : State.reset = State.resetWith Config.defaults := rfl

/-! ## softReset: every field of the block is the reset value -/

@[simp] theorem softReset_opr (s : State) : (softReset s).opr = (Block.reset s.params).opr := rfl
@[simp] theorem softReset_xora (s : State) : (softReset s).xora = (Block.reset s.params).xora := rfl
@[simp] theorem softReset_crca (s : State) : (softReset s).crca = (Block.reset s.params).crca := rfl
@[simp] theorem softReset_ch (s : State) : (softReset s).ch = (Block.reset s.params).ch := rfl
@[simp] theorem softReset_win (s : State) : (softReset s).win = (Block.reset s.params).win := rfl
@[simp] theorem softReset_mspSt (s : State) : (softReset s).mspSt = (Block.reset s.params).mspSt := rfl
@[simp] theorem softReset_hdr (s : State) : (softReset s).hdr = (Block.reset s.params).hdr := rfl
@[simp] theorem softReset_mspLen (s : State) : (softReset s).mspLen = (Block.reset s.params).mspLen := rfl
@[simp] theorem softReset_mspCmd (s : State) : (softReset s).mspCmd = (Block.reset s.params).mspCmd := rfl
@[simp] theorem softReset_mspCnt (s : State) : (softReset s).mspCnt = (Block.reset s.params).mspCnt := rfl
@[simp] theorem softReset_mspCk (s : State) : (softReset s).mspCk = (Block.reset s.params).mspCk := rfl
@[simp] theorem softReset_mspPay (s : State) : (softReset s).mspPay = (Block.reset s.params).mspPay := rfl
@[simp] theorem softReset_txCmd (s : State) : (softReset s).txCmd = (Block.reset s.params).txCmd := rfl
@[simp] theorem softReset_txN (s : State) : (softReset s).txN = (Block.reset s.params).txN := rfl
@[simp] theorem softReset_txOvf (s : State) : (softReset s).txOvf = (Block.reset s.params).txOvf := rfl
@[simp] theorem softReset_txb (s : State) : (softReset s).txb = (Block.reset s.params).txb := rfl
@[simp] theorem softReset_dn (s : State) : (softReset s).dn = (Block.reset s.params).dn := rfl
@[simp] theorem softReset_dOvf (s : State) : (softReset s).dOvf = (Block.reset s.params).dOvf := rfl
@[simp] theorem softReset_dbuf (s : State) : (softReset s).dbuf = (Block.reset s.params).dbuf := rfl
@[simp] theorem softReset_cbuf (s : State) : (softReset s).cbuf = (Block.reset s.params).cbuf := rfl
@[simp] theorem softReset_age (s : State) : (softReset s).age = (Block.reset s.params).age := rfl
@[simp] theorem softReset_seen (s : State) : (softReset s).seen = (Block.reset s.params).seen := rfl
@[simp] theorem softReset_crAddr (s : State) : (softReset s).crAddr = (Block.reset s.params).crAddr := rfl
@[simp] theorem softReset_crMaxlen (s : State) : (softReset s).crMaxlen = (Block.reset s.params).crMaxlen := rfl
@[simp] theorem softReset_crRctype (s : State) : (softReset s).crRctype = (Block.reset s.params).crRctype := rfl
@[simp] theorem softReset_crMfwin (s : State) : (softReset s).crMfwin = (Block.reset s.params).crMfwin := rfl
@[simp] theorem softReset_crErr (s : State) : (softReset s).crErr = (Block.reset s.params).crErr := rfl
@[simp] theorem softReset_params (s : State) : (softReset s).params = s.params := rfl
@[simp] theorem softReset_port (s : State) : (softReset s).port = s.port := rfl
@[simp] theorem softReset_events (s : State) : (softReset s).events = s.events := rfl

/-! ## applyFilters, channel by channel -/

@[simp] theorem applyFilters_win_getElem (us : Vector Val 16) (s : State) (k : Fin 16) :
    (applyFilters us s).win[k] = pushWindow s.crMfwin.toNat s.win[k] us[k] := by
  simp [applyFilters, pushAll, filterAll]

@[simp] theorem applyFilters_ch_getElem (us : Vector Val 16) (s : State) (k : Fin 16) :
    (applyFilters us s).ch[k] =
      filterValue s.crMfwin.toNat (pushWindow s.crMfwin.toNat s.win[k] us[k]) us[k] := by
  simp [applyFilters, pushAll, filterAll]

end Sys2Proof.Machine
end

