-- ==== Sys2Proof/Laws/Exec.lean ====
section
/-! SUPPORT. One lemma for each shared operation that says all it can do: a step, the flags, a write of a control
register, the MSP receiver byte by byte, sequences of operations, and the two folds. Proofs cite these and unfold none
of the operations. -/

namespace Sys2Proof.Machine

/-! ## A step -/

/-- All that a step can be (R80, R85, R234): nothing waits, a legal word, an illegal word. -/
theorem step_cases (s : State) :
    (s.port = [] ∧ step s = .next s) ∨
      (∃ w rest i, s.port = w :: rest ∧ decode w = .ok i ∧ step s = exec i { s with port := rest }) ∨
      (∃ w rest e, s.port = w :: rest ∧ decode w = .error e ∧
        step s = .next (raise .illegalOp { s with port := rest })) := by
  rcases hp : s.port with _ | ⟨w, rest⟩
  · exact .inl ⟨rfl, by simp [step, fetch, hp, idle]⟩
  · rcases hd : decode w with e | i
    · exact .inr (.inr ⟨w, rest, e, rfl, hd, by simp [step, fetch, hp, hd, takeIllegal]⟩)
    · exact .inr (.inl ⟨w, rest, i, rfl, hd, by simp [step, fetch, hp, hd]⟩)

/-- A sequence of operations is its first part and then its second. -/
theorem execAll_append (a b : List Instr) (s : State) :
    execAll (a ++ b) s =
      match execAll a s with
      | .next t => execAll b t
      | .fault f => .fault f
      | .refused r => .refused r := by
  induction a generalizing s with
  | nil => rfl
  | cons i a ih =>
    simp only [List.cons_append, execAll]
    cases exec i s <;> simp [ih]

/-! ## Flags -/

theorem ErrFlag.mask_getLsbD (f g : ErrFlag) : f.mask.getLsbD g.bit = decide (f = g) := by
  cases f <;> cases g <;> decide

/-- Setting a flag sets it and no other (R223). -/
theorem setFlag_flag (f g : ErrFlag) (s : State) : (setFlag f s).flag g = (s.flag g || decide (f = g)) := by
  simp [State.flag, ErrFlag.mask_getLsbD]

/-- Write-one-to-clear: a flag stays exactly where the written bit is 0 (R40). -/
theorem clearFlags_flag (m : Byte) (f : ErrFlag) (s : State) :
    (clearFlags m s).flag f = (s.flag f && !m.getLsbD f.bit) := by
  have h : f.bit < 8 := by cases f <;> decide
  simp [State.flag, h]

/-- The order in which two flags are set does not matter. -/
theorem setFlag_comm (f g : ErrFlag) (s : State) : setFlag f (setFlag g s) = setFlag g (setFlag f s) := by
  simp [setFlag, BitVec.or_assoc, BitVec.or_comm f.mask]

/-! ## Control registers -/

/-- All that a write of a control register can do (R207). -/
theorem writeCtrl_cases {r : CtrlReg} {v : Byte} {s t : State} (h : writeCtrl r v s = some t) :
    (r = .addr ∧ t = { s with crAddr := v }) ∨ (r = .maxlen ∧ t = { s with crMaxlen := v }) ∨
      (r = .rctype ∧ t = { s with crRctype := v }) ∨
      (r = .mfwin ∧ legalWindow s.params v = true ∧ t = { s with crMfwin := v, win := Vector.replicate 16 [] }) ∨
      (r = .err ∧ t = clearFlags v s) := by
  cases r <;> simp [writeCtrl] at h ⊢
  · exact h.symm
  · exact h.symm
  · exact h.symm
  · exact ⟨h.1, h.2.symm⟩
  · exact h.symm

theorem legalWindow_iff (p : Config.Params) (v : Byte) :
    legalWindow p v = true ↔ 1 ≤ v.toNat ∧ v.toNat ≤ p.mfWMax := by
  simp [legalWindow]

/-! ## The age counter -/

/-- All that TICK can do to the age (R203). -/
theorem ageAfterTick_cases (p : Config.Params) (a : Nat) :
    (a < 2 ^ p.ageW - 1 ∧ ageAfterTick p a = a + 1) ∨ (2 ^ p.ageW - 1 ≤ a ∧ ageAfterTick p a = a) := by
  by_cases h : a < maxAge p
  · exact .inl ⟨h, if_pos h⟩
  · exact .inr ⟨not_lt.1 h, if_neg h⟩

/-- The age stays within AGE_W bits. -/
theorem ageAfterTick_lt {p : Config.Params} {a : Nat} (h : a < 2 ^ p.ageW) : ageAfterTick p a < 2 ^ p.ageW := by
  rcases ageAfterTick_cases p a with ⟨_, h'⟩ | ⟨_, h'⟩ <;> rw [h'] <;> omega

/-- AGESAT (R41). -/
theorem ageSaturated_iff (s : State) : ageSaturated s = true ↔ s.age = 2 ^ s.params.ageW - 1 := by
  simp [ageSaturated, maxAge]

/-! ## The MSP receiver -/

/-- All that a byte can do in SeekHeader (R123). -/
theorem mspSeek_cases (b : Byte) (s : State) :
    (s.hdr = 0#2 ∧ b = 0x24#8 ∧ mspSeek b s = { s with hdr := 1#2 }) ∨
      (s.hdr = 1#2 ∧ b = 0x4D#8 ∧ mspSeek b s = { s with hdr := 2#2 }) ∨
      (s.hdr = 2#2 ∧ b = 0x3E#8 ∧ mspSeek b s = { s with hdr := 0#2, mspSt := .readLength }) ∨
      (¬(s.hdr = 0#2 ∧ b = 0x24#8) ∧ ¬(s.hdr = 1#2 ∧ b = 0x4D#8) ∧ ¬(s.hdr = 2#2 ∧ b = 0x3E#8) ∧
        mspSeek b s = setFlag .mspDesync { s with hdr := if b = 0x24#8 then 1#2 else 0#2 }) := by
  unfold mspSeek
  split
  · exact .inl ⟨by tauto, by tauto, rfl⟩
  · split
    · exact .inr (.inl ⟨by tauto, by tauto, rfl⟩)
    · split
      · exact .inr (.inr (.inl ⟨by tauto, by tauto, rfl⟩))
      · exact .inr (.inr (.inr ⟨by assumption, by assumption, by assumption, rfl⟩))

/-- All that a byte that goes on can do in ReadPayload (R126). -/
theorem mspReadPayload_next {b : Byte} {s t : State} (h : mspReadPayload b s = .next t) :
    s.mspCnt.toNat < 255 ∧
      t = { s with
        mspPay := memWrite s.mspPay s.mspCnt.toNat b
        mspCk := s.mspCk ^^^ b
        mspCnt := s.mspCnt + 1
        mspSt := if s.mspCnt + 1 = s.mspLen then .readChecksum else .readPayload } := by
  unfold mspReadPayload checkRoom at h
  by_cases hl : s.mspCnt.toNat < Space.mspPay.size
  · rw [if_pos hl] at h
    cases h
    exact ⟨hl, rfl⟩
  · rw [if_neg hl] at h
    cases h

/-- All that a byte that goes on can do in ReadChecksum (R127, R128). -/
theorem mspReadChecksum_next {b : Byte} {s t : State} (h : mspReadChecksum b s = .next t) :
    (b = s.mspCk ∧ ∃ p, memPrefix s.mspPay s.mspLen.toNat = some p ∧
        t = { s with
          mspSt := .seekHeader
          hdr := 0#2
          events := s.events ++ [.msp Config.mspResponse s.mspLen s.mspCmd p] }) ∨
      (b ≠ s.mspCk ∧ t = setFlag .mspCkerr { s with mspSt := .seekHeader, hdr := 0#2 }) := by
  unfold mspReadChecksum at h
  by_cases hb : b = s.mspCk
  · rw [if_pos hb] at h
    unfold mspDone at h
    rcases loadBytes_cases .mspPay s.mspPay s.mspLen.toNat with ⟨p, hp, hl⟩ | ⟨-, hl⟩
    · simp only [hl] at h
      cases h
      exact .inl ⟨hb, p, hp, rfl⟩
    · simp only [hl] at h
      cases h
  · rw [if_neg hb] at h
    cases h
    exact .inr ⟨hb, rfl⟩

/-! ## Sessions of staging -/

/-- All that ENC_BYTE can do (R132). -/
theorem execEncByte_cases (b : Byte) (s : State) :
    (s.txN.toNat < 255 ∧
        execEncByte b s = .next { s with txb := memWrite s.txb s.txN.toNat b, txN := s.txN + 1 }) ∨
      (s.txN.toNat = 255 ∧ execEncByte b s = .next { s with txOvf := true }) := by
  have hlt := s.txN.isLt
  unfold execEncByte
  by_cases h : s.txN < 255#8
  · exact .inl ⟨h, if_pos h⟩
  · refine .inr ⟨?_, if_neg h⟩
    have h' : ¬ s.txN.toNat < 255 := h
    omega

/-- All that DEC_BYTE can do (R178). -/
theorem execDecByte_cases (b : Byte) (s : State) :
    (s.dn.toNat < 22 ∧
        execDecByte b s = .next { s with dbuf := memWrite s.dbuf s.dn.toNat b, dn := s.dn + 1 }) ∨
      (22 ≤ s.dn.toNat ∧ execDecByte b s = .next { s with dOvf := true }) := by
  unfold execDecByte
  by_cases h : s.dn < 22#5
  · exact .inl ⟨h, if_pos h⟩
  · refine .inr ⟨?_, if_neg h⟩
    have h' : ¬ s.dn.toNat < 22 := h
    omega

/-! ## Folds -/

/-- The XOR fold from any start. -/
theorem foldl_xor (l : List Byte) (a : Byte) : l.foldl (· ^^^ ·) a = a ^^^ xorFold l := by
  unfold xorFold
  induction l generalizing a with
  | nil => simp
  | cons b l ih =>
    rw [List.foldl_cons, List.foldl_cons, ih, ih (0x00#8 ^^^ b), BitVec.zero_xor, BitVec.xor_assoc]

theorem xorFold_cons (b : Byte) (l : List Byte) : xorFold (b :: l) = b ^^^ xorFold l := by
  show List.foldl _ (0x00#8 ^^^ b) l = _
  rw [foldl_xor, BitVec.zero_xor]

/-- One more payload byte in a checksum. -/
theorem mspChecksum_push (n c b : Byte) (p : List Byte) :
    mspChecksum n c (p ++ [b]) = mspChecksum n c p ^^^ b := by
  simp [mspChecksum, xorFold]

theorem crcStep_injective {rom : Byte → Byte} (h : Function.Injective rom) (b : Byte) :
    Function.Injective fun c => crcStep rom c b := by
  intro x y hxy
  simpa using h hxy

end Sys2Proof.Machine
end

