-- ==== Sys2Proof/Laws/Search.lean ====
section
/-! SUPPORT. The CRSF search: all that one round can do, that a round never depends on bytes behind the candidate, and the
one induction over its rounds. -/

namespace Sys2Proof.Machine

/-! ## What one round can do -/

/-- Where the search returns (R153, R155). -/
theorem searchRound_eq_none_iff (rom : Byte → Byte) (s : State) :
    searchRound rom s = none ↔
      s.cbuf.length < 2 ∨
        ∃ l rest, s.cbuf = s.crAddr :: l :: rest ∧ validLength s l = true ∧ s.cbuf.length < l.toNat + 2 := by
  unfold searchRound
  split
  · rename_i a l rest h
    constructor
    · intro hn
      split at hn
      · cases hn
      · split at hn
        · cases hn
        · split at hn
          · simp_all
          · split at hn <;> cases hn
    · rintro (hs | ⟨l', rest', hc, hv, hl⟩)
      · simp [h] at hs
      · rw [h] at hc
        obtain ⟨rfl, rfl, rfl⟩ : a = s.crAddr ∧ l = l' ∧ rest = rest' := by simpa using hc
        simp [hv, hl]
  · rename_i h
    simp only [true_iff]
    left
    rcases hc : s.cbuf with _ | ⟨a, _ | ⟨l, rest⟩⟩
    · simp
    · simp
    · exact absurd hc (h a l rest)

/-- What a round that goes on does: it drops one byte and sets one of the three CRSF flags, or accepts the frame at the
front (R152). -/
theorem searchRound_eq_some {rom : Byte → Byte} {s t : State} (h : searchRound rom s = some t) :
    ∃ a l rest, s.cbuf = a :: l :: rest ∧
      ((a ≠ s.crAddr ∧ t = dropOne .crsfDesync s) ∨
        (a = s.crAddr ∧ validLength s l = false ∧ t = dropOne .crsfLeninv s) ∨
        (a = s.crAddr ∧ validLength s l = true ∧ l.toNat + 2 ≤ s.cbuf.length ∧
          crc8With rom (slice s.cbuf 2 l.toNat) ≠ s.cbuf.getD (l.toNat + 1) 0 ∧ t = dropOne .crsfCrcerr s) ∨
        (a = s.crAddr ∧ validLength s l = true ∧ l.toNat + 2 ≤ s.cbuf.length ∧
          crc8With rom (slice s.cbuf 2 l.toNat) = s.cbuf.getD (l.toNat + 1) 0 ∧ t = acceptFrame l.toNat s)) := by
  unfold searchRound at h
  split at h
  · rename_i a l rest hc
    refine ⟨a, l, rest, hc, ?_⟩
    split at h
    · exact .inl ⟨by assumption, by simpa using h.symm⟩
    · rename_i ha
      rw [not_not] at ha
      split at h
      · exact .inr (.inl ⟨ha, by assumption, by simpa using h.symm⟩)
      · rename_i hv
        rw [Bool.not_eq_false] at hv
        split at h
        · cases h
        · rename_i hl
          split at h
          · exact .inr (.inr (.inl ⟨ha, hv, by omega, by assumption, by simpa using h.symm⟩))
          · rename_i hcrc
            exact .inr (.inr (.inr ⟨ha, hv, by omega, not_not.1 hcrc, by simpa using h.symm⟩))
  · cases h

/-- A valid length byte is at least 2 and at most CR.MAXLEN. -/
theorem validLength_iff (s : State) (l : Byte) :
    validLength s l = true ↔ 2 ≤ l.toNat ∧ l.toNat ≤ s.crMaxlen.toNat := by
  simp [validLength]

/-! ## Accepting a frame -/

/-- The RC stage writes WIN, CH, CR.ERR and events, and nothing else (R176). -/
theorem rcStage_frame (q : List Byte) (s : State) :
    rcStage q s =
      { s with
        win := (rcStage q s).win, ch := (rcStage q s).ch, crErr := (rcStage q s).crErr
        events := (rcStage q s).events } := by
  unfold rcStage
  split <;> rfl

/-- Accepting a frame writes CBUF, AGE, SEEN, WIN, CH, CR.ERR and events, and nothing else (R157). -/
theorem acceptFrame_frame (l : Nat) (s : State) :
    acceptFrame l s =
      { s with
        cbuf := s.cbuf.drop (l + 2), age := 0, seen := true
        win := (acceptFrame l s).win, ch := (acceptFrame l s).ch, crErr := (acceptFrame l s).crErr
        events := (acceptFrame l s).events } := by
  unfold acceptFrame dispatchFrame
  dsimp only
  split
  · rw [rcStage_frame]
    rfl
  · rfl

@[simp] theorem acceptFrame_cbuf (l : Nat) (s : State) : (acceptFrame l s).cbuf = s.cbuf.drop (l + 2) := by
  rw [acceptFrame_frame]

@[simp] theorem acceptFrame_age (l : Nat) (s : State) : (acceptFrame l s).age = 0 := by
  rw [acceptFrame_frame]

@[simp] theorem acceptFrame_seen (l : Nat) (s : State) : (acceptFrame l s).seen = true := by
  rw [acceptFrame_frame]

/-- Accepting a frame whose type is not CR.RCTYPE (R158). -/
theorem acceptFrame_other {l : Nat} {s : State} (h : (slice s.cbuf 0 (l + 1)).getD 2 0 ≠ s.crRctype) :
    acceptFrame l s =
      { s with
        cbuf := s.cbuf.drop (l + 2), age := 0, seen := true
        events := s.events ++ [.frame (slice s.cbuf 0 (l + 1))] } := by
  unfold acceptFrame dispatchFrame
  exact if_neg h

/-- Accepting a frame of type CR.RCTYPE whose payload has 22 bytes (R158, R176). -/
theorem acceptFrame_rc {l : Nat} {s : State} {us : Vector Val 16}
    (h : (slice s.cbuf 0 (l + 1)).getD 2 0 = s.crRctype)
    (hq : (slice (slice s.cbuf 0 (l + 1)) 3 l).length = Config.rcPayload)
    (hus : us = decodeChannels (slice (slice s.cbuf 0 (l + 1)) 3 l)) :
    acceptFrame l s =
      { s with
        cbuf := s.cbuf.drop (l + 2), age := 0, seen := true
        win := pushAll s.crMfwin.toNat s.win us
        ch := filterAll s.crMfwin.toNat (pushAll s.crMfwin.toNat s.win us) us
        events := s.events ++ [.frame (slice s.cbuf 0 (l + 1)),
          .chan (filterAll s.crMfwin.toNat (pushAll s.crMfwin.toNat s.win us) us)] } := by
  subst hus
  unfold acceptFrame dispatchFrame rcStage
  refine (if_pos h).trans ((if_pos hq).trans ?_)
  simp only [emit, applyFilters, List.append_assoc, List.cons_append, List.nil_append]

/-- Accepting a frame of type CR.RCTYPE whose payload has not 22 bytes (R158, R176). -/
theorem acceptFrame_badLength {l : Nat} {s : State} (h : (slice s.cbuf 0 (l + 1)).getD 2 0 = s.crRctype)
    (hq : (slice (slice s.cbuf 0 (l + 1)) 3 l).length ≠ Config.rcPayload) :
    acceptFrame l s =
      { s with
        cbuf := s.cbuf.drop (l + 2), age := 0, seen := true
        events := s.events ++ [.frame (slice s.cbuf 0 (l + 1)), .err .invalidPayloadLength]
        crErr := s.crErr ||| ErrFlag.decerr.mask } := by
  unfold acceptFrame dispatchFrame rcStage
  refine (if_pos h).trans ((if_neg hq).trans ?_)
  simp only [raise, setFlag, emit, ErrorCode.flag, List.append_assoc, List.cons_append, List.nil_append]

/-- All that accepting a frame can do (R157, R158, R176). -/
theorem acceptFrame_cases (l : Nat) (s : State) :
    acceptFrame l s =
        { s with
          cbuf := s.cbuf.drop (l + 2), age := 0, seen := true
          events := s.events ++ [.frame (slice s.cbuf 0 (l + 1))] } ∨
      (∃ us : Vector Val 16, us = decodeChannels (slice (slice s.cbuf 0 (l + 1)) 3 l) ∧
        acceptFrame l s =
          { s with
            cbuf := s.cbuf.drop (l + 2), age := 0, seen := true
            win := pushAll s.crMfwin.toNat s.win us
            ch := filterAll s.crMfwin.toNat (pushAll s.crMfwin.toNat s.win us) us
            events := s.events ++ [.frame (slice s.cbuf 0 (l + 1)),
              .chan (filterAll s.crMfwin.toNat (pushAll s.crMfwin.toNat s.win us) us)] }) ∨
      acceptFrame l s =
        { s with
          cbuf := s.cbuf.drop (l + 2), age := 0, seen := true
          events := s.events ++ [.frame (slice s.cbuf 0 (l + 1)), .err .invalidPayloadLength]
          crErr := s.crErr ||| ErrFlag.decerr.mask } := by
  by_cases h : (slice s.cbuf 0 (l + 1)).getD 2 0 = s.crRctype
  · by_cases hq : (slice (slice s.cbuf 0 (l + 1)) 3 l).length = Config.rcPayload
    · exact .inr (.inl ⟨_, rfl, acceptFrame_rc h hq rfl⟩)
    · exact .inr (.inr (acceptFrame_badLength h hq))
  · exact .inl (acceptFrame_other h)

/-- Every round that goes on shortens CBUF from the front (R159). -/
theorem searchRound_cbuf {rom : Byte → Byte} {s t : State} (h : searchRound rom s = some t) :
    t.cbuf <:+ s.cbuf ∧ t.cbuf.length < s.cbuf.length := by
  obtain ⟨a, l, rest, hc, ⟨-, rfl⟩ | ⟨-, -, rfl⟩ | ⟨-, -, -, -, rfl⟩ | ⟨-, -, hl, -, rfl⟩⟩ := searchRound_eq_some h
  all_goals simp only [dropOne_cbuf, acceptFrame_cbuf]
  all_goals refine ⟨List.drop_suffix _ _, ?_⟩
  all_goals simp only [List.length_drop, hc, List.length_cons] at *
  all_goals omega

/-- What a round leaves alone: everything but CBUF, AGE, SEEN, WIN, CH, CR.ERR and events. -/
theorem searchRound_frame {rom : Byte → Byte} {s t : State} (h : searchRound rom s = some t) :
    t = { s with
      cbuf := t.cbuf, age := t.age, seen := t.seen, ch := t.ch, win := t.win, crErr := t.crErr, events := t.events } := by
  obtain ⟨a, l, rest, hc, ⟨-, rfl⟩ | ⟨-, -, rfl⟩ | ⟨-, -, -, -, rfl⟩ | ⟨-, -, -, -, rfl⟩⟩ := searchRound_eq_some h
  · rfl
  · rfl
  · rfl
  · conv_lhs => rw [acceptFrame_frame]
    rw [acceptFrame_cbuf, acceptFrame_age, acceptFrame_seen]

/-! ## All rounds -/

/-- What every round keeps, the search keeps. -/
theorem searchLoop_induct {rom : Byte → Byte} {P : State → Prop}
    (hround : ∀ s t, searchRound rom s = some t → P s → P t) (n : Nat) (s : State) (hs : P s) :
    P (searchLoop rom n s) := by
  induction n generalizing s with
  | zero => exact hs
  | succ n ih =>
    simp only [searchLoop]
    split
    · exact hs
    · exact ih _ (hround _ _ ‹_› hs)

/-- As many rounds as CBUF has bytes reach the place where the search returns (R159). -/
theorem searchLoop_settled (rom : Byte → Byte) (n : Nat) (s : State) (h : s.cbuf.length ≤ n) :
    searchRound rom (searchLoop rom n s) = none := by
  induction n generalizing s with
  | zero =>
    simp only [searchLoop]
    exact (searchRound_eq_none_iff rom s).2 (.inl (by omega))
  | succ n ih =>
    simp only [searchLoop]
    split
    · assumption
    · have := (searchRound_cbuf ‹_›).2
      exact ih _ (by omega)

/-- Where the search has returned it stays. -/
theorem searchLoop_of_settled {rom : Byte → Byte} {s : State} (h : searchRound rom s = none) (n : Nat) :
    searchLoop rom n s = s := by
  cases n <;> simp [searchLoop, h]

/-- Any two allowances of at least as many rounds as CBUF has bytes give the same search. -/
theorem searchLoop_enough (rom : Byte → Byte) (n m : Nat) (s : State) (hn : s.cbuf.length ≤ n)
    (hm : s.cbuf.length ≤ m) : searchLoop rom n s = searchLoop rom m s := by
  induction n generalizing m s with
  | zero =>
    have hs := (searchRound_eq_none_iff rom s).2 (.inl (by omega))
    rw [searchLoop_of_settled hs, searchLoop_of_settled hs]
  | succ n ih =>
    cases hr : searchRound rom s with
    | none => rw [searchLoop_of_settled hr, searchLoop_of_settled hr]
    | some t =>
      have hlt := (searchRound_cbuf hr).2
      obtain ⟨k, rfl⟩ : ∃ k, m = k + 1 := ⟨m - 1, by omega⟩
      simp only [searchLoop, hr]
      exact ih k t (by omega) (by omega)

/-- The search from a state whose round goes on is the search from the next one. -/
theorem processCrsf_of_some {rom : Byte → Byte} {s t : State} (h : searchRound rom s = some t) :
    processCrsf rom s = processCrsf rom t := by
  have hlt := (searchRound_cbuf h).2
  unfold processCrsf
  obtain ⟨k, hk⟩ : ∃ k, s.cbuf.length = k + 1 := ⟨s.cbuf.length - 1, by omega⟩
  rw [hk]
  simp only [searchLoop, h]
  exact searchLoop_enough rom k t.cbuf.length t (by omega) le_rfl

/-- The search where it returns at once. -/
theorem processCrsf_of_none {rom : Byte → Byte} {s : State} (h : searchRound rom s = none) :
    processCrsf rom s = s := searchLoop_of_settled h _

/-- What every round keeps, the search keeps. -/
theorem processCrsf_induct {rom : Byte → Byte} {P : State → Prop}
    (hround : ∀ s t, searchRound rom s = some t → P s → P t) (s : State) (hs : P s) : P (processCrsf rom s) :=
  searchLoop_induct hround _ s hs

/-- What the search leaves alone: everything but CBUF, AGE, SEEN, WIN, CH, CR.ERR and events. -/
theorem processCrsf_frame (rom : Byte → Byte) (s : State) :
    processCrsf rom s = { s with
      cbuf := (processCrsf rom s).cbuf, age := (processCrsf rom s).age, seen := (processCrsf rom s).seen
      ch := (processCrsf rom s).ch, win := (processCrsf rom s).win, crErr := (processCrsf rom s).crErr
      events := (processCrsf rom s).events } :=
  processCrsf_induct
    (P := fun t => t = { s with
      cbuf := t.cbuf, age := t.age, seen := t.seen, ch := t.ch, win := t.win, crErr := t.crErr, events := t.events })
    (fun u v huv hu => by rw [searchRound_frame huv, hu]) s rfl

end Sys2Proof.Machine
end

