-- ==== Sys2Proof/Laws/Invariant.lean ====
section
/-! SUPPORT. The parts of the invariant: each depends on its own fields alone, and the events part grows by one event at a
time. -/

namespace Sys2Proof.Machine

theorem MspInv.of_eq {s t : State} (h : MspInv s) (hst : t.mspSt = s.mspSt) (hhdr : t.hdr = s.hdr)
    (hlen : t.mspLen = s.mspLen) (hcmd : t.mspCmd = s.mspCmd) (hcnt : t.mspCnt = s.mspCnt) (hck : t.mspCk = s.mspCk)
    (hpay : t.mspPay = s.mspPay) : MspInv t := by
  obtain ⟨h1, h2, h3, h4, h5, h6, h7⟩ := h
  exact ⟨by simpa only [hst], by simpa only [hhdr], by simpa only [hst, hhdr], by simpa only [hst, hck, hlen],
    by simpa only [hst, hcnt, hlen], by simpa only [hst, hcnt, hlen],
    by simpa only [hst, hpay, hcnt, hck, hlen, hcmd]⟩

theorem StoreInv.of_eq {s t : State} (h : StoreInv s) (hpay : t.mspPay = s.mspPay) (htxb : t.txb = s.txb)
    (hdbuf : t.dbuf = s.dbuf) : StoreInv t := by
  obtain ⟨h1, h2, h3, h4, h5, h6⟩ := h
  exact ⟨hpay ▸ h1, htxb ▸ h2, hdbuf ▸ h3, hpay ▸ h4, htxb ▸ h5, hdbuf ▸ h6⟩

theorem StagingInv.of_eq {s t : State} (h : StagingInv s) (htxb : t.txb = s.txb) (htxn : t.txN = s.txN)
    (hovf : t.txOvf = s.txOvf) (hdbuf : t.dbuf = s.dbuf) (hdn : t.dn = s.dn) (hdovf : t.dOvf = s.dOvf) :
    StagingInv t := by
  obtain ⟨h1, h2, h3, h4, h5⟩ := h
  refine ⟨?_, ?_, ?_, ?_, ?_⟩
  · rw [htxb, htxn]; exact h1
  · rw [hovf, htxn]; exact h2
  · rw [hdn]; exact h3
  · rw [hdbuf, hdn]; exact h4
  · rw [hdovf, hdn]; exact h5

theorem WindowInv.of_eq {s t : State} (h : WindowInv s) (hp : t.params = s.params) (hw : t.crMfwin = s.crMfwin)
    (hwin : t.win = s.win) : WindowInv t := by
  obtain ⟨h1, h2⟩ := h
  refine ⟨by rw [hp, hw]; exact h1, fun k => ?_⟩
  rw [hw, hwin]
  exact h2 k

theorem CbufInv.of_eq {s t : State} (h : CbufInv s) (hc : t.cbuf = s.cbuf) : CbufInv t := by
  unfold CbufInv at *
  rw [hc]
  exact h

theorem AgeInv.of_eq {s t : State} (h : AgeInv s) (hp : t.params = s.params) (ha : t.age = s.age) : AgeInv t := by
  unfold AgeInv at *
  rw [hp, ha]
  exact h

theorem EventsInv.of_eq {s t : State} (h : EventsInv s) (hp : t.params = s.params) (he : t.events = s.events) :
    EventsInv t := by
  unfold EventsInv at *
  rw [hp, he]
  exact h

/-- Events of the right shape may be appended. -/
theorem EventsInv.append {s t : State} (h : EventsInv s) (hp : t.params = s.params) {new : List Event}
    (he : t.events = s.events ++ new) (hnew : ∀ e ∈ new, e.Wf s.params) : EventsInv t := by
  intro e hm
  rw [hp]
  rw [he, List.mem_append] at hm
  exact hm.elim (h e) (hnew e)

/-- Every part of the invariant that is not about CBUF, windows and events survives a search round, which writes none of
their fields. -/
theorem processCrsf_msp_store_staging (rom : Byte → Byte) {s : State} (hm : MspInv s) (hs : StoreInv s)
    (hg : StagingInv s) :
    MspInv (processCrsf rom s) ∧ StoreInv (processCrsf rom s) ∧ StagingInv (processCrsf rom s) := by
  rw [processCrsf_frame rom s]
  exact ⟨hm.of_eq rfl rfl rfl rfl rfl rfl rfl, hs.of_eq rfl rfl rfl, hg.of_eq rfl rfl rfl rfl rfl rfl⟩

/-- A push keeps a window within its size. -/
theorem pushWindow_length_le {w : Nat} {win : List Val} (v : Val) (hw : 1 ≤ w) (h : win.length ≤ w) :
    (pushWindow w win v).length ≤ w := by
  unfold pushWindow
  split <;> simp <;> omega

@[simp] theorem slice_length (s : List Byte) (i j : Nat) : (slice s i j).length = min (j + 1 - i) (s.length - i) := by
  simp [slice]

theorem slice_zero (s : List Byte) (j : Nat) : slice s 0 j = s.take (j + 1) := by
  simp [slice]

end Sys2Proof.Machine
end

