-- ==== Sys2Proof/Laws/PerInstr.lean ====
section
/-! SUPPORT. Facts about each operation as syntax, one lemma per constructor: its word decodes to it (spec/30_encoding.md
R84). -/

namespace Sys2Proof.Laws.RoundTrip

/-- The operation decodes from its own word. -/
def Statement (i : Instr) : Prop := decode (encode i) = .ok i

theorem nop : Statement .nop := rfl

theorem srst : Statement .srst := rfl

theorem tick : Statement .tick := rfl

theorem getage : Statement .getage := rfl

theorem getch (imm : Byte) : Statement (.getch imm) := by
  simp [Statement, encode, decode, decodeSystem]

theorem oplo (imm : Byte) : Statement (.oplo imm) := by
  simp [Statement, encode, decode, decodeSystem]

theorem ophi (imm : Byte) : Statement (.ophi imm) := by
  simp [Statement, encode, decode, decodeSystem]

theorem wrcr (minor : BitVec 4) (imm : Byte) : Statement (.wrcr minor imm) := by
  simp [Statement, encode, decode]

theorem rdcr (minor : BitVec 4) : Statement (.rdcr minor) := by
  simp [Statement, encode, decode, needZeroImm]

theorem xorInit : Statement .xorInit := rfl

theorem xorUpd (imm : Byte) : Statement (.xorUpd imm) := by
  simp [Statement, encode, decode, decodeXor]

theorem xorRd : Statement .xorRd := rfl

theorem xorChk (imm : Byte) : Statement (.xorChk imm) := by
  simp [Statement, encode, decode, decodeXor]

theorem mspPush (imm : Byte) : Statement (.mspPush imm) := by
  simp [Statement, encode, decode, decodeMsp]

theorem mspAbort : Statement .mspAbort := rfl

theorem encOpen (imm : Byte) : Statement (.encOpen imm) := by
  simp [Statement, encode, decode, decodeMsp]

theorem encByte (imm : Byte) : Statement (.encByte imm) := by
  simp [Statement, encode, decode, decodeMsp]

theorem encClose : Statement .encClose := rfl

theorem crcInit : Statement .crcInit := rfl

theorem crcUpd (imm : Byte) : Statement (.crcUpd imm) := by
  simp [Statement, encode, decode, decodeCrc]

theorem crcRd : Statement .crcRd := rfl

theorem crsfPush (imm : Byte) : Statement (.crsfPush imm) := by
  simp [Statement, encode, decode, decodeCrsf]

theorem decOpen : Statement .decOpen := rfl

theorem decByte (imm : Byte) : Statement (.decByte imm) := by
  simp [Statement, encode, decode, decodeDec]

theorem decClose : Statement .decClose := rfl

theorem mfUpd (minor : BitVec 4) : Statement (.mfUpd minor) := by
  simp [Statement, encode, decode, needZeroImm]

end Sys2Proof.Laws.RoundTrip
end

