-- ==== Sys2Proof/Tests/Slice0.lean ====
section
/-! SUPPORT. The model's own tests: words written out bit by bit from the opcode map (spec/30_encoding.md R84), illegal words
clause by clause (R85), one step of each operation with the results of spec/95_test_vectors.md, and for every statement with
hypotheses a concrete state and operands that meet them all (`witness_...`). -/

namespace Sys2Proof.Tests

open Sys2Proof.Machine

/-! ## Decoding: `major minor imm`, four, four and eight bits, from the row of R84 -/

theorem test_decode_nop : decode 0b0000000000000000#16 = .ok .nop := by decide
theorem test_decode_srst : decode 0b0000000100000000#16 = .ok .srst := by decide
theorem test_decode_tick : decode 0b0000001000000000#16 = .ok .tick := by decide
theorem test_decode_getage : decode 0b0000001100000000#16 = .ok .getage := by decide
theorem test_decode_getch : decode 0b0000010000010000#16 = .ok (.getch 16#8) := by decide
theorem test_decode_oplo : decode 0b0000010111101000#16 = .ok (.oplo 0xE8#8) := by decide
theorem test_decode_ophi : decode 0b0000011000000011#16 = .ok (.ophi 0x03#8) := by decide
theorem test_decode_wrcr : decode 0b0001001100000101#16 = .ok (.wrcr 3#4 5#8) := by decide
theorem test_decode_wrcr_reserved : decode 0b0001111111111111#16 = .ok (.wrcr 15#4 0xFF#8) := by decide
theorem test_decode_rdcr : decode 0b0010010100000000#16 = .ok (.rdcr 5#4) := by decide
theorem test_decode_xorInit : decode 0b0011000000000000#16 = .ok .xorInit := by decide
theorem test_decode_xorUpd : decode 0b0011000101100101#16 = .ok (.xorUpd 0x65#8) := by decide
theorem test_decode_xorRd : decode 0b0011001000000000#16 = .ok .xorRd := by decide
theorem test_decode_xorChk : decode 0b0011001101100100#16 = .ok (.xorChk 0x64#8) := by decide
theorem test_decode_mspPush : decode 0b0100000000100100#16 = .ok (.mspPush 0x24#8) := by decide
theorem test_decode_mspAbort : decode 0b0100000100000000#16 = .ok .mspAbort := by decide
theorem test_decode_encOpen : decode 0b0100001011001000#16 = .ok (.encOpen 0xC8#8) := by decide
theorem test_decode_encByte : decode 0b0100001111011100#16 = .ok (.encByte 0xDC#8) := by decide
theorem test_decode_encClose : decode 0b0100010000000000#16 = .ok .encClose := by decide
theorem test_decode_crcInit : decode 0b0101000000000000#16 = .ok .crcInit := by decide
theorem test_decode_crcUpd : decode 0b0101000100110001#16 = .ok (.crcUpd 0x31#8) := by decide
theorem test_decode_crcRd : decode 0b0101001000000000#16 = .ok .crcRd := by decide
theorem test_decode_crsfPush : decode 0b0110000011001000#16 = .ok (.crsfPush 0xC8#8) := by decide
theorem test_decode_decOpen : decode 0b0111000000000000#16 = .ok .decOpen := by decide
theorem test_decode_decByte : decode 0b0111000111100000#16 = .ok (.decByte 0xE0#8) := by decide
theorem test_decode_decClose : decode 0b0111001000000000#16 = .ok .decClose := by decide
theorem test_decode_mfUpd : decode 0b1000111100000000#16 = .ok (.mfUpd 15#4) := by decide

/-! ## Illegal words: V77, and 0x2001 of V71, at least one for every clause of R85 -/

theorem test_illegal_major0_minor : legalWord 0x0700#16 = false := by decide
theorem test_illegal_major0_imm : legalWord 0x0001#16 = false ∧ legalWord 0x0101#16 = false := by decide
theorem test_illegal_major2_imm : legalWord 0x2001#16 = false := by decide
theorem test_illegal_major3_minor : legalWord 0x3400#16 = false := by decide
theorem test_illegal_major3_imm : legalWord 0x3001#16 = false := by decide
theorem test_illegal_major4_minor : legalWord 0x4500#16 = false := by decide
theorem test_illegal_major4_imm : legalWord 0x4101#16 = false := by decide
theorem test_illegal_major5_minor : legalWord 0x5300#16 = false := by decide
theorem test_illegal_major5_imm : legalWord 0x5001#16 = false := by decide
theorem test_illegal_major6_minor : legalWord 0x6100#16 = false := by decide
theorem test_illegal_major7_minor : legalWord 0x7300#16 = false := by decide
theorem test_illegal_major7_imm : legalWord 0x7201#16 = false := by decide
theorem test_illegal_major8_imm : legalWord 0x8001#16 = false := by decide
theorem test_illegal_major9_up : legalWord 0x9000#16 = false ∧ legalWord 0xF123#16 = false := by decide

theorem test_illegal_words_decode_to_their_reason :
    decode 0x0700#16 = .error (.reservedMinor 0x0700#16) ∧ decode 0x2001#16 = .error (.immNotZero 0x2001#16) ∧
      decode 0xF123#16 = .error (.reservedMajor 0xF123#16) := by decide

/-! ## One step of each operation -/

/-- The state an outcome goes on to. -/
def nextOf : Host.Outcome State Fault Refusal → Option State
  | .next t => some t
  | .fault _ => none
  | .refused _ => none

/-- The last event after an operation that goes on. -/
def lastEvent (i : Instr) (s : State) : Option Event := (nextOf (exec i s)).bind fun t => t.events.getLast?

/-- The reset state with a receiver that waits in `st` with `hdr` header bytes matched. -/
def mspAt (st : MspState) (hdr : BitVec 2) : State := { State.reset with mspSt := st, hdr := hdr }

/-- The reset state with those bytes in CBUF. -/
def crsfAt (bytes : List Byte) : State := { State.reset with cbuf := bytes }

/-- The reset state with those values in the window of channel 1. -/
def windowAt (values : List Val) : State := { State.reset with win := State.reset.win.set 0 values }

-- V80
theorem test_nop : exec .nop State.reset = .next State.reset := rfl

-- V79
theorem test_srst_clears_a_register_and_a_flag :
    (nextOf (exec .srst { State.reset with crMfwin := 5#8, crErr := 0xFF#8, xora := 7#8 })).map
      (fun t => (t.crMfwin, t.crErr, t.xora, t.events)) = some (3#8, 0#8, 0#8, []) := by decide

-- V76
theorem test_tick_reaches_the_largest_age :
    (nextOf (exec .tick { State.reset with age := 0xFFFFFFFE })).map (·.age) = some 0xFFFFFFFF := by decide
theorem test_tick_saturates :
    (nextOf (exec .tick { State.reset with age := 0xFFFFFFFF })).map (·.age) = some 0xFFFFFFFF := by decide

/-- A block built with other parameters than the defaults (R6): the smallest largest window, a 16-bit age. -/
def variant : Config.Params := { mfWMax := 3, addrRst := 0xEE#8, maxlenRst := 40#8, rctypeRst := 0x17#8, ageW := 16 }

theorem test_variant_resets_to_its_parameters :
    (nextOf (exec .srst { State.resetWith variant with crAddr := 0#8, crMaxlen := 0#8, age := 7 })).map
      (fun t => (t.crAddr, t.crMaxlen, t.crRctype, t.age)) = some (0xEE#8, 40#8, 0x17#8, 0) := by decide
theorem test_variant_age_saturates_and_has_two_bytes :
    (nextOf (exec .tick { State.resetWith variant with age := 0xFFFF })).map (·.age) = some 0xFFFF ∧
      (Event.age 0x0102).bytes variant = [0x08, 0x02, 0x01] := by decide
theorem test_variant_window_four_raises :
    (nextOf (exec (.wrcr 3#4 4#8) (State.resetWith variant))).map (fun t => (t.crMfwin, t.crErr)) =
      some (3#8, 0x20#8) := by decide

-- V75: least significant byte first
theorem test_getage_bytes :
    (lastEvent .getage { State.reset with age := 2 }).map (Event.bytes Config.defaults) =
      some [8, 2, 0, 0, 0] := by decide

-- V74
theorem test_getch_after_reset :
    (lastEvent (.getch 16#8) State.reset).map (Event.bytes Config.defaults) = some [0x06, 0xDC, 0x05] := by decide
theorem test_getch_out_of_range :
    (lastEvent (.getch 17#8) State.reset).map (Event.bytes Config.defaults) = some [0x0F, 0x03] := by decide

-- V81
theorem test_oplo : (nextOf (exec (.oplo 0xE8#8) State.reset)).map (·.opr) = some 0x00E8#16 := by decide
theorem test_ophi :
    (nextOf (exec (.ophi 0x03#8) { State.reset with opr := 0x00E8#16 })).map (·.opr) = some 0x03E8#16 := by decide

-- V72, V73
theorem test_wrcr_window_nine_raises :
    (nextOf (exec (.wrcr 3#4 9#8) State.reset)).map (fun t => (t.crMfwin, t.crErr)) = some (3#8, 0x20#8) := by decide
theorem test_wrcr_err_clears_written_ones :
    (nextOf (exec (.wrcr 4#4 0x20#8) { State.reset with crErr := 0x60#8 })).map (·.crErr) = some 0x40#8 := by decide

-- V27: HDR = 2 reads as STAT 0x10; V71
theorem test_rdcr_stat : lastEvent (.rdcr 5#4) (mspAt .seekHeader 2#2) = some (.val8 0x10#8) := by decide
theorem test_rdcr_reserved : lastEvent (.rdcr 6#4) State.reset = some (.err .outOfRange) := by decide

-- V6
theorem test_xorInit : (nextOf (exec .xorInit { State.reset with xora := 0x65#8 })).map (·.xora) = some 0#8 := by decide
theorem test_xorUpd :
    (nextOf (exec (.xorUpd 0x65#8) { State.reset with xora := 0x0B#8 })).map (·.xora) = some 0x6E#8 := by decide
theorem test_xorRd : lastEvent .xorRd { State.reset with xora := 0x65#8 } = some (.val8 0x65#8) := by decide
theorem test_xorChk_equal : lastEvent (.xorChk 0x65#8) { State.reset with xora := 0x65#8 } = some (.val8 1#8) := by
  decide
theorem test_xorChk_differs_sets_no_flag :
    (nextOf (exec (.xorChk 0x64#8) { State.reset with xora := 0x65#8 })).map (fun t => (t.events, t.crErr)) =
      some ([.val8 0#8], 0#8) := by decide

-- V23: a second '$' restarts the match and sets MSP_DESYNC
theorem test_mspPush_dollar_restarts :
    (nextOf (exec (.mspPush 0x24#8) (mspAt .seekHeader 1#2))).map (fun t => (t.hdr, t.crErr)) =
      some (1#2, 0x08#8) := by decide
-- V24: the frame of two payload bytes and checksum 0x91
theorem test_mspPush_accepts_a_frame :
    (lastEvent (.mspPush 0x91#8) { mspAt .readChecksum 0#2 with
      mspLen := 2#8, mspCmd := 0x6C#8, mspCnt := 2#8, mspCk := 0x91#8, mspPay := [(0, 0xAA#8), (1, 0x55#8)] }).map
      (Event.bytes Config.defaults) = some [0x03, 0x3E, 0x02, 0x6C, 0xAA, 0x55] := by decide

-- V26, V27
theorem test_mspAbort_sets_trunc :
    (nextOf (exec .mspAbort { mspAt .readPayload 0#2 with mspLen := 0x0B#8, mspCnt := 3#8 })).map
      (fun t => (t.mspSt, t.mspLen, t.mspCnt, t.crErr)) = some (.seekHeader, 0#8, 0#8, 0x80#8) := by decide
theorem test_mspAbort_in_seekHeader :
    (nextOf (exec .mspAbort (mspAt .seekHeader 2#2))).map (fun t => (t.hdr, t.crErr)) = some (0#2, 0#8) := by decide

-- V30, V31, V33
theorem test_encOpen :
    (nextOf (exec (.encOpen 0x65#8) { State.reset with txN := 3#8, txOvf := true })).map
      (fun t => (t.txCmd, t.txN, t.txOvf)) = some (0x65#8, 0#8, false) := by decide
theorem test_encByte_stores :
    (nextOf (exec (.encByte 0x05#8) { State.reset with txN := 1#8, txb := [(0, 0xDC#8)] })).map
      (fun t => (t.txN, t.txb)) = some (2#8, [(0, 0xDC#8), (1, 0x05#8)]) := by decide
theorem test_encByte_full :
    (nextOf (exec (.encByte 0x05#8) { State.reset with txN := 255#8 })).map (fun t => (t.txN, t.txOvf, t.txb)) =
      some (255#8, true, []) := by decide
theorem test_encClose :
    (lastEvent .encClose { State.reset with
      txCmd := 0xC8#8, txN := 2#8, txb := [(0, 0xDC#8), (1, 0x05#8)] }).map (Event.bytes Config.defaults) =
      some [0x04, 0x24, 0x4D, 0x3C, 0x02, 0xC8, 0xDC, 0x05, 0x13] := by decide
theorem test_encClose_overflow :
    (lastEvent .encClose { State.reset with txN := 255#8, txOvf := true }).map (Event.bytes Config.defaults) =
      some [0x0F, 0x02] := by decide

-- V12, and the first step of V16
theorem test_crcInit : (nextOf (exec .crcInit { State.reset with crca := 9#8 })).map (·.crca) = some 0#8 := by decide
theorem test_crcUpd : (nextOf (exec (.crcUpd 0x31#8) State.reset)).map (·.crca) = some 0x23#8 := by decide
theorem test_crcUpd_high_row :
    (nextOf (exec (.crcUpd 0x33#8) { State.reset with crca := 0x87#8 })).map (·.crca) = some 0xE7#8 := by decide
theorem test_crcRd : lastEvent .crcRd { State.reset with crca := 0xBC#8 } = some (.val8 0xBC#8) := by decide

-- V48: the smallest frame; V43: the push on which a failed candidate lets the embedded frame through
theorem test_crsfPush_smallest_frame :
    (nextOf (exec (.crsfPush 0xA0#8) (crsfAt [0xC8, 0x02, 0x3A]))).map (fun t => (t.cbuf, t.seen, t.events)) =
      some ([], true, [.frame [0xC8, 0x02, 0x3A, 0xA0]]) := by decide
theorem test_crsfPush_finds_the_embedded_frame :
    (nextOf (exec (.crsfPush 0x00#8) (crsfAt [0xC8, 0x06, 0xC8, 0x02, 0x3A, 0xA0, 0x00]))).map
      (fun t => (t.cbuf, t.crErr, t.events)) =
      some ([0x00], 0x05#8, [.frame [0xC8, 0x02, 0x3A, 0xA0]]) := by decide

theorem test_decOpen :
    (nextOf (exec .decOpen { State.reset with dn := 3#5, dOvf := true })).map (fun t => (t.dn, t.dOvf)) =
      some (0#5, false) := by decide
theorem test_decByte_full :
    (nextOf (exec (.decByte 1#8) { State.reset with dn := 22#5 })).map (fun t => (t.dn, t.dOvf)) =
      some (22#5, true) := by decide
theorem test_decByte_stores :
    (nextOf (exec (.decByte 0xE0#8) State.reset)).map (fun t => (t.dn, t.dbuf)) = some (1#5, [(0, 0xE0#8)]) := by decide
-- section 2.5, length errors
theorem test_decClose_short_raises :
    (nextOf (exec .decClose { State.reset with dn := 21#5 })).map (fun t => (t.dn, t.crErr, t.events)) =
      some (0#5, 0x20#8, [.err .invalidPayloadLength]) := by decide

-- V57: channels 1 to 4 of that payload; V60: channel 16 ends at bit 7 of byte 21
theorem test_unpack_order :
    (unpack11 [0x00, 0x20, 0x03, 0x32, 0x58, 0x02, 0x19, 0xFA, 0x60, 0x89, 0x57, 0x20, 0x23, 0x1C, 0xFA, 0x98,
      0x08, 0x4B, 0x8A, 0xE2, 0x95, 0xBB]).map BitVec.toNat =
      [0, 100, 200, 300, 400, 500, 600, 700, 800, 900, 1000, 1100, 1200, 1300, 1400, 1500] := by decide

-- V61, V66: the third call returns a median; the 17-bit sum
theorem test_mfUpd_median :
    lastEvent (.mfUpd 0#4) { windowAt [10, 1000] with opr := 20#16 } = some (.val16 20#16) := by decide
theorem test_median_even_wide_sum : median [10#16, 20#16, 65535#16, 65535#16] = 32777#16 := by decide

/-! ## A step at the ports -/

theorem test_step_takes_one_word :
    (nextOf (step { State.reset with port := [0x0200#16, 0x0300#16] })).map (fun t => (t.age, t.port)) =
      some (1, [0x0300#16]) := by decide

-- V77
theorem test_step_illegal_word :
    (nextOf (step (State.reset.withFetchWord 16 0xF123))).map (fun t => (t.events, t.crErr, t.port)) =
      some ([.err .illegalOp], 0x40#8, []) := by decide

/-! ## Assembler text (R88): register names, and channels counted from 1 -/

theorem test_asm_wrcr : asmLine (.wrcr 3#4 5#8) = "WRCR MFWIN, 5" := by decide
theorem test_asm_mfUpd : asmLine (.mfUpd 0#4) = "MF_UPD 1" := by decide

/-! ## Witnesses: states and operands that meet the hypotheses of each statement, at the ends of their ranges -/

/-- A state in the middle of everything: an MSP payload half received, a request and a payload being staged, a CRSF
candidate waiting, a value in window 1, an event emitted, a command word waiting. -/
def busy : State :=
  { State.reset with
    mspSt := .readPayload, mspLen := 2#8, mspCmd := 0x6C#8, mspCnt := 1#8, mspCk := 0xC4#8, mspPay := [(0, 0xAA#8)]
    txCmd := 0xC8#8, txN := 1#8, txb := [(0, 0xDC#8)], dn := 2#5, dbuf := [(0, 1#8), (1, 2#8)]
    cbuf := [0xC8, 0x18, 0x16], win := State.reset.win.set 0 [1500#16], events := [.val8 1#8], port := [0x4055#16] }

theorem full_length (n : Nat) (b : Byte) : (List.replicate n b).length = n := List.length_replicate ..

theorem full_cbuf_length (n : Nat) (b : Byte) : (crsfAt (List.replicate n b)).cbuf.length = n := full_length n b

theorem full_cbuf_stops (b : Byte) :
    exec (.crsfPush b) (crsfAt (List.replicate 257 b)) = .fault (.outsideStore .cbuf 257) := by
  simp only [exec, execCrsfPush, full_cbuf_length]
  rw [checkRoom_error (sp := .cbuf) (i := 257) le_rfl]

theorem busy_windows : ∀ k : Fin 16, busy.win[k].length ≤ busy.crMfwin.toNat := by decide

theorem defaults_legal : Config.defaults.Legal := by decide

theorem variant_legal : variant.Legal := by decide

theorem busy_inv : BlockInv busy where
  params := defaults_legal
  msp := ⟨by decide, by decide, by decide, by decide, by decide, by decide, fun _ => ⟨[0xAA#8], by decide, by decide⟩⟩
  store := ⟨by decide, by decide, by decide, by decide, by decide, by decide⟩
  staging := ⟨by decide, by decide, by decide, by decide, by decide⟩
  window := ⟨by decide, busy_windows⟩
  cbuf := .inr (by decide)
  age := show 0 < 2 ^ 32 by decide
  events := by intro e he; simp [busy] at he; subst he; trivial

/-- The smallest frame of V48: type 0x3A, no payload, under the reset address. -/
theorem min_frame_valid : ValidFrame State.reset 2#8 [0x3A#8] := ⟨by decide, by decide, by decide⟩

/-- The RC frame of 22 payload bytes has length byte 24. -/
theorem rc_frame_valid : ValidFrame State.reset 24#8 (0x16#8 :: List.replicate 22 0#8) := ⟨by decide, by decide, by decide⟩

/-- The largest length byte is 62 after reset; its payload of 60 bytes is not 22 (V49 has 21). -/
theorem long_rc_frame_valid : ValidFrame State.reset 62#8 (0x16#8 :: List.replicate 60 0#8) :=
  ⟨by decide, by decide, by decide⟩

theorem min_frame_bytes : frameBytes crcRom State.reset 2#8 [0x3A#8] = [0xC8, 0x02, 0x3A, 0xA0] := by decide

theorem witness_DecodeInvertsEncode : decode 0x8F00#16 = .ok (.mfUpd 15#4) ∧ 0x8F00#16 = encode (.mfUpd 15#4) := by
  decide

theorem witness_DecoderFollowsOpcodeMap :
    (∃ r ∈ opcodeMap, r.admits 0x0410#16 = true ∧ r.mnemonic = "GETCH") ∧
      decode 0x0410#16 = .ok (.getch 0x10#8) := by
  exact ⟨⟨⟨"GETCH", .I, 0x0400, 0xFF00⟩, by simp [opcodeMap], by decide, rfl⟩, by decide⟩

theorem witness_IllegalWordsRaiseIllegalOp :
    5 ≤ (5#4).toNat ∧ 5 ≤ (15#4).toNat ∧ 6 ≤ (6#4).toNat ∧ 6 ≤ (15#4).toNat := by decide

theorem witness_StepRunsTheDecodedInstruction :
    busy.port = 0x4055#16 :: [] ∧ decode 0x4055#16 = .ok (.mspPush 0x55#8) ∧
      decodeTableWord 16 0x4055 = some (.mspPush 0x55#8) ∧ State.reset.port = [] ∧
      decode 0x0001#16 = .error (.immNotZero 0x0001#16) := by decide

theorem witness_FlagsStayUntilCleared_srst :
    ∃ t, step { State.reset with port := [0x0100#16], crErr := 0x80#8 } = .next t ∧
      State.flag { State.reset with port := [0x0100#16], crErr := 0x80#8 } .trunc = true ∧ t.flag .trunc = false :=
  ⟨_, rfl, by decide, by decide⟩

theorem witness_FlagsStayUntilCleared_wrcr :
    ∃ t, step { State.reset with port := [0x1401#16], crErr := 0x81#8 } = .next t ∧
      State.flag { State.reset with port := [0x1401#16], crErr := 0x81#8 } .crsfDesync = true ∧
      t.flag .crsfDesync = false :=
  ⟨_, rfl, by decide, by decide⟩

theorem witness_FlagsAreSetOnlyByTheirCause_crsf :
    (∃ t, exec (.crsfPush 0#8) (crsfAt [0x55]) = .next t ∧ t.flag .crsfDesync = true) ∧
      (∃ t, exec (.crsfPush 1#8) (crsfAt [0xC8]) = .next t ∧ t.flag .crsfLeninv = true) ∧
      ∃ t, exec (.crsfPush 0#8) (crsfAt [0xC8, 0x02, 0x3A]) = .next t ∧ t.flag .crsfCrcerr = true :=
  ⟨⟨_, rfl, by decide⟩, ⟨_, rfl, by decide⟩, ⟨_, rfl, by decide⟩⟩

theorem witness_FlagsAreSetOnlyByTheirCause_other :
    (∃ t, exec (.mspPush 0#8) State.reset = .next t ∧ t.flag .mspDesync = true) ∧
      (∃ t, exec (.mspPush 1#8) (mspAt .readChecksum 0#2) = .next t ∧ t.flag .mspCkerr = true) ∧
      (∃ t, exec .mspAbort (mspAt .readLength 0#2) = .next t ∧ t.flag .trunc = true) ∧
      ∃ t, exec (.getch 0#8) State.reset = .next t ∧ t.flag .decerr = true :=
  ⟨⟨_, rfl, by decide⟩, ⟨_, rfl, by decide⟩, ⟨_, rfl, by decide⟩, ⟨_, rfl, by decide⟩⟩

theorem witness_PastOutputIsNoState :
    (∃ t, exec (.mspPush 0x55#8) busy = .next t) ∧ exec (.mspPush 0#8) (mspAt .done 0#2) = .fault .mspDoneStored :=
  ⟨⟨_, rfl⟩, rfl⟩

theorem witness_EventsAreOnlyAppended : ∃ t, step busy = .next t := ⟨_, rfl⟩

theorem witness_EventStreamIsSelfDelimiting :
    EventsInv { State.reset with
      events := [.frame [0xC8, 0x02, 0x3A, 0xA0], .msp 0x3E#8 1#8 5#8 [9], .tx (mspEncode 0x65#8 []), .age 2] } := by
  intro e he
  simp only [List.mem_cons, List.not_mem_nil, or_false] at he
  rcases he with rfl | rfl | rfl | rfl
  · exact ⟨by decide, by decide⟩
  · exact ⟨by decide, by decide⟩
  · exact ⟨by decide, by decide⟩
  · show 2 < 2 ^ 32; decide

theorem witness_NopHasNoEffect : (1#8 : Byte) ≠ 0#8 ∧ (0xFF#8 : Byte) ≠ 0#8 := by decide

theorem witness_SoftResetRestoresResetValues : busy.params.Legal ∧ variant.Legal := ⟨defaults_legal, variant_legal⟩

theorem witness_TickCountsAndSaturates :
    State.reset.age < 2 ^ State.reset.params.ageW - 1 ∧ State.reset.params.ageW = 32 ∧
      ({ State.reset with age := 0xFFFFFFFF } : State).age = 2 ^ State.reset.params.ageW - 1 ∧
      ({ State.resetWith variant with age := 0xFFFE } : State).age < 2 ^ variant.ageW - 1 := by decide

theorem witness_GetageReportsAge :
    Config.defaults.ageW = 32 ∧ Config.defaults.ageW % 8 = 0 ∧ 0xFFFFFFFF < 2 ^ Config.defaults.ageW ∧
      variant.ageW % 8 = 0 ∧ 0xFFFF < 2 ^ variant.ageW := by decide

theorem witness_GetchReportsChannelOrRaises :
    (1#8).toNat = (0 : Fin 16).val + 1 ∧ (16#8).toNat = (15 : Fin 16).val + 1 ∧ (0#8).toNat = 0 ∧
      17 ≤ (17#8).toNat ∧ 17 ≤ (255#8).toNat ∧ (List.replicate 22 (0#8 : Byte)).length = 22 ∧
      ∃ t, exec (.mfUpd 15#4) State.reset = .next t := ⟨by decide, by decide, by decide, by decide, by decide, by decide,
  _, rfl⟩

theorem witness_OperandRegisterHalves :
    (∃ t, exec (.mfUpd 0#4) busy = .next t) ∧ (∀ b, Instr.mfUpd 0#4 ≠ .oplo b) ∧ (∀ b, Instr.mfUpd 0#4 ≠ .ophi b) ∧
      Instr.mfUpd 0#4 ≠ .srst := ⟨⟨_, rfl⟩, nofun, nofun, nofun⟩

theorem witness_WrcrWritesTheNamedRegister :
    1 ≤ (1#8).toNat ∧ (8#8).toNat ≤ State.reset.params.mfWMax ∧ (0#8).toNat = 0 ∧
      State.reset.params.mfWMax < (9#8).toNat ∧ State.reset.params.mfWMax < (255#8).toNat ∧
      (State.resetWith variant).params.mfWMax < (4#8).toNat ∧ 5 ≤ (5#4).toNat ∧ 5 ≤ (15#4).toNat := by decide

theorem witness_RdcrReportsTheNamedRegister : (1#8 : Byte) ≠ 0#8 ∧ 6 ≤ (6#4).toNat ∧ 6 ≤ (15#4).toNat := by decide

theorem witness_XorAccumulatorOperations :
    (1#8 : Byte) ≠ 0#8 ∧ State.reset.xora = 0#8 ∧ State.reset.xora ≠ 0xFF#8 := by decide

theorem witness_XorChecksumLaws : [1#8, 2#8].Perm [2#8, 1#8] := List.Perm.swap _ _ _

theorem witness_CrcAccumulatorOperations : (1#8 : Byte) ≠ 0#8 := by decide

theorem witness_CrcLaws : crcRom 0 = 0 ∧ Function.Injective (id : Byte → Byte) ∧ (1#8 : Byte) ≠ 2#8 :=
  ⟨by decide, fun _ _ h => h, by decide⟩

theorem witness_MspReceiverFollowsTransitionTable_seek :
    ((mspAt .seekHeader 0#2).mspSt = .seekHeader ∧ (mspAt .seekHeader 0#2).hdr = 0#2 ∧ (0x4D#8 : Byte) ≠ 0x24#8) ∧
      ((mspAt .seekHeader 1#2).hdr = 1#2 ∧ (0x3E#8 : Byte) ≠ 0x4D#8 ∧ (0x3E#8 : Byte) ≠ 0x24#8) ∧
      ((mspAt .seekHeader 2#2).hdr = 2#2 ∧ (0x3C#8 : Byte) ≠ 0x3E#8 ∧ (0x3C#8 : Byte) ≠ 0x24#8) := by decide

theorem witness_MspReceiverFollowsTransitionTable_body :
    (mspAt .readLength 0#2).mspSt = .readLength ∧
      ((mspAt .readCommand 0#2).mspSt = .readCommand ∧ (mspAt .readCommand 0#2).mspLen = 0#8) ∧
      (({ mspAt .readCommand 0#2 with mspLen := 255#8 } : State).mspSt = .readCommand ∧ (255#8 : Byte) ≠ 0#8) ∧
      (({ busy with mspLen := 3#8 } : State).mspSt = .readPayload ∧
        (({ busy with mspLen := 3#8 } : State).mspCnt).toNat + 1 < (({ busy with mspLen := 3#8 } : State).mspLen).toNat) ∧
      (busy.mspSt = .readPayload ∧ busy.mspCnt.toNat + 1 = busy.mspLen.toNat) ∧ busy.mspSt ≠ .seekHeader := by decide

theorem witness_MspReceiverFollowsTransitionTable_checksum :
    (mspAt .readChecksum 0#2).mspSt = .readChecksum ∧
      memPrefix (mspAt .readChecksum 0#2).mspPay (mspAt .readChecksum 0#2).mspLen.toNat = some [] ∧
      (1#8 : Byte) ≠ (mspAt .readChecksum 0#2).mspCk := by decide

/-- V23's bytes: no shorter beginning of `24 24 4D 3E` ends in the header. -/
theorem witness_HeaderIsMatchedExactlyByItsThreeBytes :
    State.reset.mspSt = .seekHeader ∧ State.reset.hdr = 0#2 ∧
      ∀ pre, pre <+: [0x24#8, 0x24#8, 0x4D#8, 0x3E#8] → pre ≠ [0x24#8, 0x24#8, 0x4D#8, 0x3E#8] →
        ¬ [0x24#8, 0x4D#8, 0x3E#8] <:+ pre := by
  refine ⟨by decide, by decide, fun pre hp hne => ?_⟩
  have h : ∀ pre ∈ ([0x24#8, 0x24#8, 0x4D#8, 0x3E#8] : List Byte).inits, pre ≠ [0x24#8, 0x24#8, 0x4D#8, 0x3E#8] →
      ¬ [0x24#8, 0x4D#8, 0x3E#8] <:+ pre := by decide
  exact h pre ((List.mem_inits _ _).2 hp) hne

theorem witness_MspRoundTripRecoversCommandAndPayload :
    ([] : List Byte).length ≤ 255 ∧ (List.replicate 255 (0#8 : Byte)).length ≤ 255 ∧ State.reset.mspSt = .seekHeader ∧
      State.reset.hdr = 0#2 := ⟨Nat.zero_le _, (full_length 255 0#8).le, rfl, rfl⟩

theorem witness_EncoderOperations :
    State.reset.txN.toNat < 255 ∧ (254#8).toNat < 255 ∧ (255#8).toNat = 255 ∧
      ({ State.reset with txN := 255#8, txOvf := true } : State).txOvf = true ∧
      (busy.txOvf = false ∧ memPrefix busy.txb busy.txN.toNat = some [0xDC#8]) := by decide

theorem witness_RequestSequencesEncodeOrRaise :
    (List.replicate 255 (0#8 : Byte)).length ≤ 255 ∧ 255 < (List.replicate 256 (0#8 : Byte)).length :=
  ⟨(full_length 255 0#8).le, (full_length 256 0#8).ge⟩

theorem witness_CrsfPushAppendsThenSearches :
    busy.cbuf.length ≤ 256 ∧ (crsfAt (List.replicate 256 0#8)).cbuf.length ≤ 256 :=
  ⟨by decide, (full_cbuf_length 256 0#8).le⟩

theorem witness_SearchRoundFollowsItsSteps_dropped :
    ((crsfAt [0xC8]).cbuf.length < 2 ∧ searchRound crcRom (crsfAt [0xC8]) = none) ∧
      ((crsfAt [0x55, 0xC8]).cbuf = 0x55 :: 0xC8 :: [] ∧ (0x55#8 : Byte) ≠ (crsfAt [0x55, 0xC8]).crAddr ∧
        (searchRound crcRom (crsfAt [0x55, 0xC8])).isSome = true) ∧
      ((crsfAt [0xC8, 0x01]).cbuf = State.reset.crAddr :: 0x01 :: [] ∧ (0x01#8).toNat < 2) ∧
      ((crsfAt [0xC8, 0x3F]).cbuf = State.reset.crAddr :: 0x3F :: [] ∧ State.reset.crMaxlen.toNat < (0x3F#8).toNat) ∧
      ((crsfAt [0xC8, 0x02, 0x3A]).cbuf = State.reset.crAddr :: 0x02 :: [0x3A] ∧ 2 ≤ (0x02#8).toNat ∧
        (0x02#8).toNat ≤ State.reset.crMaxlen.toNat ∧ [0x3A#8].length < (0x02#8).toNat) := by decide

theorem witness_SearchRoundFollowsItsSteps_crc :
    (crsfAt [0xC8, 0x02, 0x3A, 0xA1]).cbuf = State.reset.crAddr :: 0x02 :: ([0x3A] ++ 0xA1 :: []) ∧
      ValidFrame State.reset 2#8 [0x3A#8] ∧ crc8With crcRom [0x3A#8] ≠ 0xA1#8 :=
  ⟨by decide, min_frame_valid, by decide⟩

theorem witness_SearchRoundFollowsItsSteps_accepted :
    ((crsfAt [0xC8, 0x02, 0x3A, 0xA0, 0x00]).cbuf = frameBytes crcRom State.reset 2#8 (0x3A#8 :: []) ++ [0x00] ∧
        ValidFrame State.reset 2#8 [0x3A#8] ∧ (0x3A#8 : Byte) ≠ State.reset.crRctype) ∧
      ValidFrame State.reset 24#8 (State.reset.crRctype :: List.replicate 22 0#8) ∧
      (List.replicate 22 (0#8 : Byte)).length = 22 ∧
      ValidFrame State.reset 62#8 (State.reset.crRctype :: List.replicate 60 0#8) ∧
      (List.replicate 60 (0#8 : Byte)).length ≠ 22 :=
  ⟨⟨by decide, min_frame_valid, by decide⟩, rc_frame_valid, by decide, long_rc_frame_valid, by decide⟩

theorem witness_SearchTerminatesAndMakesProgress :
    (∃ t, searchRound crcRom (crsfAt [0x55, 0xC8]) = some t) ∧ (crsfAt [0x55, 0xC8]).cbuf.length ≤ 2 :=
  ⟨⟨_, rfl⟩, by decide⟩

theorem witness_ChunkingDoesNotMatter :
    [[0x55#8], [0xC8#8, 0x02#8]] ≠ [] ∧ (crsfAt (List.replicate 256 0#8)).cbuf.length ≤ 256 ∧ [0x55#8] ≠ [] :=
  ⟨by decide, (full_cbuf_length 256 0#8).le, by decide⟩

theorem witness_CrsfBufferNeverOverflows :
    (crsfAt (List.replicate 256 0#8)).cbuf.length ≤ 256 ∧ (∃ t, step busy = .next t) ∧ busy.cbuf.length ≤ 256 ∧
      (processCrsf crcRom busy).crMaxlen = 62#8 ∧ ∃ t, exec (.wrcr 1#4 0xFF#8) busy = .next t :=
  ⟨(full_cbuf_length 256 0#8).le, ⟨_, rfl⟩, by decide, by decide, ⟨_, rfl⟩⟩

theorem witness_ValidFrameIsDelivered :
    State.reset.cbuf = [] ∧ (ValidFrame State.reset 2#8 [0x3A#8] ∧ (0x3A#8 : Byte) ≠ State.reset.crRctype) ∧
      (ValidFrame State.reset 24#8 (State.reset.crRctype :: List.replicate 22 0#8) ∧
        (List.replicate 22 (0#8 : Byte)).length = 22) ∧
      (ValidFrame State.reset 62#8 (State.reset.crRctype :: List.replicate 60 0#8) ∧
        (List.replicate 60 (0#8 : Byte)).length ≠ 22) :=
  ⟨rfl, ⟨min_frame_valid, by decide⟩, ⟨rc_frame_valid, by decide⟩, long_rc_frame_valid, by decide⟩

theorem witness_GarbageByteDoesNotLoseTheFrame :
    State.reset.cbuf = [] ∧ ValidFrame State.reset 2#8 [0x3A#8] ∧ (0x55#8 : Byte) ≠ State.reset.crAddr ∧
      (0xC8#8 : Byte) = State.reset.crAddr ∧ State.reset.crMaxlen.toNat < State.reset.crAddr.toNat ∧
      ({ State.reset with crAddr := 1#8 } : State).crAddr.toNat < 2 ∧
      ValidFrame { State.reset with crAddr := 1#8 } 2#8 [0x3A#8] :=
  ⟨rfl, min_frame_valid, by decide, by decide, by decide, by decide, by decide, by decide, by decide⟩

theorem witness_UnpackerEqualsClosedForm :
    (List.replicate 22 (0xFF#8 : Byte)).length = 22 ∧ 0 < 16 ∧ 15 < 16 ∧
      unpack11 (List.replicate 22 0xFF#8) = unpack11 (List.replicate 22 0xFF#8) ∧
      (List.replicate 16 (2047#11 : Raw)).length = 16 := by simp

theorem witness_MicrosecondMapRange :
    (0#11).toNat ≤ (2047#11).toNat ∧ (1984#11).toNat ≤ 1984 ∧ 1984 + 2 ≤ (1986#11).toNat ∧
      1984 + 2 ≤ (2047#11).toNat := by decide

theorem witness_StandAloneDecoderOperations :
    State.reset.dn.toNat < 22 ∧ (21#5).toNat < 22 ∧ 22 ≤ (22#5).toNat ∧ (21#5).toNat ≠ 22 ∧
      (({ busy with dn := 22#5, dbuf := (List.range 22).map fun i => (i, 0#8) } : State).dn).toNat = 22 ∧
      memPrefix ((List.range 22).map fun i => (i, 0#8)) 22 = some (List.replicate 22 0#8) ∧ busy.dOvf = false ∧
      ({ busy with dn := 22#5, dOvf := true } : State).dOvf = true := by decide

theorem witness_DecodeSequencesReportChannelsOrRaise :
    (List.replicate 22 (0#8 : Byte)).length = 22 ∧ (List.replicate 21 (0#8 : Byte)).length ≠ 22 ∧
      (List.replicate 23 (0#8 : Byte)).length ≠ 22 := by decide

theorem witness_MedianIsTheMiddleOfTheSortedWindow :
    ([10#16, 20#16, 1000#16].Perm [10#16, 1000#16, 20#16] ∧ [10#16, 20#16, 1000#16].Pairwise (· ≤ ·) ∧
        [10#16, 1000#16, 20#16].length % 2 = 1) ∧
      ([10#16, 20#16].Perm [20#16, 10#16] ∧ [10#16, 20#16].Pairwise (· ≤ ·) ∧ [20#16, 10#16].length % 2 = 0 ∧
        [10#16, 20#16][2 / 2 - 1]? = some 10#16 ∧ [10#16, 20#16][2 / 2]? = some 20#16) := by decide

theorem witness_MfUpdPushesAndReports :
    (1#8 : Byte) ≠ 0#8 ∧ (State.reset.win[(15#4).toFin]).length + 1 < State.reset.crMfwin.toNat ∧
      ((windowAt [10, 1000]).win[(0#4).toFin]).length + 1 = (windowAt [10, 1000]).crMfwin.toNat ∧
      (windowAt [10, 1000, 20]).win[(0#4).toFin] = 10#16 :: [1000#16, 20#16] ∧
      [1000#16, 20#16].length + 1 = (windowAt [10, 1000, 20]).crMfwin.toNat := by decide

theorem witness_WindowAndFilterProperties :
    (1 : Nat) ≤ 1 ∧ (∀ x ∈ [10#16, 1000#16], (10#16 : Val) ≤ x ∧ x ≤ 1000#16) ∧ (10#16 : Val) ≤ 20#16 ∧
      (20#16 : Val) ≤ 1000#16 ∧ ∀ x ∈ [7#16, 7#16], x = 7#16 := by simp

theorem busy_range : RangeInv { busy with port := [0x8F00#16], opr := 2044#16 } :=
  ⟨fun k => by simp [busy, State.reset, State.resetWith, Block.reset, InRange], fun k v hv => by
    have h : ∀ k : Fin 16, busy.win[k] = [] ∨ busy.win[k] = [1500#16] := by decide
    rcases h k with h | h
    · exact absurd hv (by
        rw [show ({ busy with port := [0x8F00#16], opr := 2044#16 } : State).win = busy.win from rfl, h]; simp)
    · have hv' : v ∈ busy.win[k] := hv
      rw [h, List.mem_singleton] at hv'
      subst hv'
      exact ⟨by decide, by decide⟩⟩

theorem witness_RaiseEmitsErrorAndSetsFlag :
    BlockInv busy ∧ RangeInv { busy with port := [0x8F00#16], opr := 2044#16 } := ⟨busy_inv, busy_range⟩

theorem witness_DecodedRangeIsKept :
    RangeInv { busy with port := [0x8F00#16], opr := 2044#16 } ∧
      (∃ t, step { busy with port := [0x8F00#16], opr := 2044#16 } = .next t) ∧ InRange 2044#16 ∧ InRange 988#16 ∧
      nextWord { busy with port := [0x8F00#16], opr := 2044#16 } = some (encode (.mfUpd 15#4)) :=
  ⟨busy_range, ⟨_, rfl⟩, ⟨by decide, by decide⟩, ⟨by decide, by decide⟩, by decide⟩

theorem witness_StoresChangeOnlyTheStagedByte :
    ((∃ t, exec (.encByte 5#8) busy = .next t) ∧ busy.txN.toNat < 255) ∧
      ((∃ t, exec (.encByte 5#8) { busy with txN := 255#8 } = .next t) ∧ (255#8).toNat = 255) ∧
      ((∃ t, exec (.decByte 5#8) busy = .next t) ∧ busy.dn.toNat < 22) ∧
      ((∃ t, exec (.decByte 5#8) { busy with dn := 22#5 } = .next t) ∧ 22 ≤ (22#5).toNat) ∧
      ((∃ t, exec (.mspPush 0x55#8) busy = .next t) ∧ busy.mspSt = .readPayload) ∧
      ((∃ t, exec (.mspPush 0x24#8) State.reset = .next t) ∧ State.reset.mspSt ≠ .readPayload) ∧
      (∃ t, exec (.mfUpd 0#4) busy = .next t) ∧ Instr.mfUpd 0#4 ≠ .srst :=
  ⟨⟨⟨_, rfl⟩, by decide⟩, ⟨⟨_, rfl⟩, by decide⟩, ⟨⟨_, rfl⟩, by decide⟩, ⟨⟨_, rfl⟩, by decide⟩, ⟨⟨_, rfl⟩, by decide⟩,
    ⟨⟨_, rfl⟩, by decide⟩, ⟨_, rfl⟩, nofun⟩

theorem witness_ReceiversDoNotTouchEachOther :
    (∃ t, exec (.crsfPush 0xE0#8) busy = .next t) ∧ (∃ t, exec (.mspPush 0x55#8) busy = .next t) ∧
      (∃ t, exec (.mfUpd 15#4) busy = .next t) ∧ (0 : Fin 16) ≠ (15#4).toFin :=
  ⟨⟨_, rfl⟩, ⟨_, rfl⟩, ⟨_, rfl⟩, by decide⟩

theorem witness_StandAloneOperationsCommuteWithPushes :
    (∃ t, execAll [.xorUpd 5#8, .crsfPush 0xE0#8] busy = .next t) ∧
      ∃ t, execAll [.decByte 5#8, .mspPush 0x55#8] busy = .next t := ⟨⟨_, rfl⟩, ⟨_, rfl⟩⟩

theorem witness_InvariantsAreKeptByEveryStep : BlockInv busy ∧ ∃ t, step busy = .next t := ⟨busy_inv, _, rfl⟩

theorem witness_InvariantsHoldAtReset : Config.defaults.Legal ∧ variant.Legal := ⟨defaults_legal, variant_legal⟩

theorem witness_EveryRunFromResetCompletes : Config.defaults.Legal ∧ variant.Legal := ⟨defaults_legal, variant_legal⟩

theorem witness_EveryStepGoesOn : BlockInv busy := busy_inv

/-- Each stop that `StopsAreExactlyThoseNamed` names is one some state (never one between operations) runs into. -/
theorem witness_StopsAreExactlyThoseNamed :
    exec (.mspPush 0#8) (mspAt .done 0#2) = .fault .mspDoneStored ∧
      exec (.mspPush 0#8) { mspAt .readPayload 0#2 with mspCnt := 255#8 } = .fault (.outsideStore .mspPay 255) ∧
      exec (.mspPush 0#8) { mspAt .readChecksum 0#2 with mspLen := 1#8 } = .fault (.unwrittenByte .mspPay 1) ∧
      exec .encClose { State.reset with txN := 1#8 } = .fault (.unwrittenByte .txb 1) ∧
      exec .decClose { State.reset with dn := 22#5 } = .fault (.unwrittenByte .dbuf 22) ∧
      exec (.crsfPush 0#8) (crsfAt (List.replicate 257 0#8)) = .fault (.outsideStore .cbuf 257) :=
  ⟨rfl, rfl, rfl, rfl, rfl, full_cbuf_stops 0#8⟩

end Sys2Proof.Tests
end

section
/-! PROOF. The illegal words (spec/30_encoding.md R82 to R86). The list of R85, the opcode map of R84 and the decoder
are each reduced, unit by unit, to one description of a word by its fields, `FieldsAccepted`. -/

namespace Sys2Proof

/-! ## A word by its fields -/

/-- Which minors and immediates the unit `major` takes (R84): with `imm` 0 those of formats Z and N, with any `imm`
those of formats I and NI. -/
def FieldsAccepted (major minor imm : Nat) : Prop :=
  match major with
  | 0 => minor ≤ 3 ∧ imm = 0 ∨ 4 ≤ minor ∧ minor ≤ 6
  | 1 => True
  | 2 => imm = 0
  | 3 => (minor = 0 ∨ minor = 2) ∧ imm = 0 ∨ minor = 1 ∨ minor = 3
  | 4 => (minor = 1 ∨ minor = 4) ∧ imm = 0 ∨ minor = 0 ∨ minor = 2 ∨ minor = 3
  | 5 => (minor = 0 ∨ minor = 2) ∧ imm = 0 ∨ minor = 1
  | 6 => minor = 0
  | 7 => (minor = 0 ∨ minor = 2) ∧ imm = 0 ∨ minor = 1
  | 8 => imm = 0
  | _ => False

/-! ## The list of R85 -/

theorem legalWord_iff_fieldsAccepted (w : CmdWord) :
    legalWord w = true ↔ FieldsAccepted (majorOf w).toNat (minorOf w).toNat (immOf w).toNat := by
  simp only [legalWord, ← majorOf_toNat, ← minorOf_toNat, ← immOf_toNat]
  unfold FieldsAccepted
  split <;> simp_all <;> omega

/-! ## The decoder -/

theorem exists_needZeroImm_ok_iff (w : CmdWord) (i : Instr) :
    (∃ j, needZeroImm w i = .ok j) ↔ (immOf w).toNat = 0 := by
  have himm : (immOf w).toNat = 0 ↔ immOf w = 0#8 := BitVec.toNat_inj (y := 0#8)
  rcases needZeroImm_cases w i with ⟨h0, h⟩ | ⟨h0, h⟩ <;> simp [himm, h0, h]

theorem exists_decodeSystem_ok_iff (w : CmdWord) :
    (∃ i, decodeSystem w = .ok i) ↔ FieldsAccepted 0 (minorOf w).toNat (immOf w).toNat := by
  unfold decodeSystem FieldsAccepted
  split <;> simp_all [exists_needZeroImm_ok_iff]
  omega

theorem exists_decodeXor_ok_iff (w : CmdWord) :
    (∃ i, decodeXor w = .ok i) ↔ FieldsAccepted 3 (minorOf w).toNat (immOf w).toNat := by
  unfold decodeXor FieldsAccepted
  split <;> simp_all [exists_needZeroImm_ok_iff]

theorem exists_decodeMsp_ok_iff (w : CmdWord) :
    (∃ i, decodeMsp w = .ok i) ↔ FieldsAccepted 4 (minorOf w).toNat (immOf w).toNat := by
  unfold decodeMsp FieldsAccepted
  split <;> simp_all [exists_needZeroImm_ok_iff]

theorem exists_decodeCrc_ok_iff (w : CmdWord) :
    (∃ i, decodeCrc w = .ok i) ↔ FieldsAccepted 5 (minorOf w).toNat (immOf w).toNat := by
  unfold decodeCrc FieldsAccepted
  split <;> simp_all [exists_needZeroImm_ok_iff]

theorem exists_decodeCrsf_ok_iff (w : CmdWord) :
    (∃ i, decodeCrsf w = .ok i) ↔ FieldsAccepted 6 (minorOf w).toNat (immOf w).toNat := by
  unfold decodeCrsf FieldsAccepted
  split <;> simp_all

theorem exists_decodeDec_ok_iff (w : CmdWord) :
    (∃ i, decodeDec w = .ok i) ↔ FieldsAccepted 7 (minorOf w).toNat (immOf w).toNat := by
  unfold decodeDec FieldsAccepted
  split <;> simp_all [exists_needZeroImm_ok_iff]

theorem exists_decode_ok_iff_fieldsAccepted (w : CmdWord) :
    (∃ i, decode w = .ok i) ↔ FieldsAccepted (majorOf w).toNat (minorOf w).toNat (immOf w).toNat := by
  unfold decode
  split
  next h => rw [h, exists_decodeSystem_ok_iff]
  next h => simp [h, FieldsAccepted]
  next h => rw [h, exists_needZeroImm_ok_iff]; rfl
  next h => rw [h, exists_decodeXor_ok_iff]
  next h => rw [h, exists_decodeMsp_ok_iff]
  next h => rw [h, exists_decodeCrc_ok_iff]
  next h => rw [h, exists_decodeCrsf_ok_iff]
  next h => rw [h, exists_decodeDec_ok_iff]
  next h => rw [h, exists_needZeroImm_ok_iff]; rfl
  next => simp [FieldsAccepted]

/-! ## The opcode map -/

/-- Two words are equal when their three fields are (R81). -/
theorem eq_iff_fields (v w : CmdWord) :
    v = w ↔ majorOf v = majorOf w ∧ minorOf v = minorOf w ∧ immOf v = immOf w := by
  refine ⟨fun h => h ▸ ⟨rfl, rfl, rfl⟩, fun ⟨hmajor, hminor, himm⟩ => ?_⟩
  rw [← packWord_fields v, hmajor, hminor, himm, packWord_fields]

@[simp] theorem majorOf_and (v w : CmdWord) : majorOf (v &&& w) = majorOf v &&& majorOf w :=
  BitVec.extractLsb'_and

@[simp] theorem minorOf_and (v w : CmdWord) : minorOf (v &&& w) = minorOf v &&& minorOf w :=
  BitVec.extractLsb'_and

@[simp] theorem immOf_and (v w : CmdWord) : immOf (v &&& w) = immOf v &&& immOf w :=
  BitVec.extractLsb'_and

/-- A row admits a word exactly when it admits each of its fields (R84). -/
theorem OpcodeRow.admits_iff_fields (r : OpcodeRow) (w : CmdWord) :
    r.admits w = true ↔ majorOf w &&& majorOf r.mask = majorOf r.pattern ∧
      minorOf w &&& minorOf r.mask = minorOf r.pattern ∧ immOf w &&& immOf r.mask = immOf r.pattern := by
  simp [OpcodeRow.admits, eq_iff_fields]


theorem majorOf_ofNat (n : Nat) : majorOf (BitVec.ofNat 16 n) = BitVec.ofNat 4 (n / 4096) := by
  apply BitVec.eq_of_toNat_eq
  rw [majorOf_toNat, BitVec.toNat_ofNat, BitVec.toNat_ofNat]
  omega

theorem minorOf_ofNat (n : Nat) : minorOf (BitVec.ofNat 16 n) = BitVec.ofNat 4 (n / 256) := by
  apply BitVec.eq_of_toNat_eq
  rw [minorOf_toNat, BitVec.toNat_ofNat, BitVec.toNat_ofNat]
  omega

theorem immOf_ofNat (n : Nat) : immOf (BitVec.ofNat 16 n) = BitVec.ofNat 8 n := by
  apply BitVec.eq_of_toNat_eq
  rw [immOf_toNat, BitVec.toNat_ofNat, BitVec.toNat_ofNat]
  omega

/-- The 26 rows become 26 conditions on the fields; in each unit those of the other units drop out. -/
theorem exists_row_admits_iff_fieldsAccepted (w : CmdWord) :
    (∃ r ∈ opcodeMap, r.admits w = true) ↔
      FieldsAccepted (majorOf w).toNat (minorOf w).toNat (immOf w).toNat := by
  have hnibble (n : BitVec 4) : n &&& 15#4 = n := BitVec.and_allOnes
  have hbyte (n : Byte) : n &&& 255#8 = n := BitVec.and_allOnes
  simp only [opcodeMap, List.cons_append, List.nil_append, List.exists_mem_cons_iff, List.not_mem_nil,
    OpcodeRow.admits_iff_fields, BitVec.ofNat_eq_ofNat, majorOf_ofNat, minorOf_ofNat, immOf_ofNat, Nat.reduceDiv,
    BitVec.reduceOfNat, hnibble, hbyte, BitVec.and_zero, ← BitVec.toNat_inj, BitVec.reduceToNat]
  unfold FieldsAccepted
  split <;> simp_all <;> omega

end Sys2Proof

namespace Sys2Proof.Machine

/-! ## What an illegal word does -/

/-- R222 for IllegalOp: one EV_ERR, bit 6 of CR.ERR, and the block goes on. -/
theorem takeIllegal_eq (s : State) : takeIllegal s =
    .next { s with events := s.events ++ [.err .illegalOp], crErr := s.crErr ||| 0x40#8 } := rfl

/-! ## Register numbers without a use -/

theorem ctrlReg_eq_none_iff (n : BitVec 4) : ctrlReg n = none ↔ 6 ≤ n.toNat := by
  unfold ctrlReg
  split <;> simp_all
  omega

theorem ctrlReg_eq_stat {n : BitVec 4} (h : n.toNat = 5) : ctrlReg n = some .stat := by
  simp [ctrlReg, h]

/-- R207: STAT (5) is read-only and 6 to 15 are reserved. -/
theorem exec_wrcr_not_writable {n : BitVec 4} (h : 5 ≤ n.toNat) (v : Byte) (s : State) :
    exec (.wrcr n v) s = .next (raise .outOfRange s) := by
  show execWrcr n v s = _
  unfold execWrcr
  rcases h.eq_or_lt with hstat | hreserved
  · rw [ctrlReg_eq_stat hstat.symm]; rfl
  · rw [(ctrlReg_eq_none_iff n).2 hreserved]

/-- R208: 6 to 15 are reserved. -/
theorem exec_rdcr_reserved {n : BitVec 4} (h : 6 ≤ n.toNat) (s : State) :
    exec (.rdcr n) s = .next (raise .outOfRange s) := by
  show execRdcr n s = _
  unfold execRdcr
  rw [(ctrlReg_eq_none_iff n).2 h]

/-- Settles O3: the list, the map and the decoder agree by `FieldsAccepted`; the effects are those of `raise`. -/
theorem illegalWordsRaiseIllegalOp : Obligations.IllegalWordsRaiseIllegalOp := by
  refine ⟨fun w => ?decoder, fun w => ?map, takeIllegal_eq, fun _ => rfl, Laws.RoundTrip.wrcr,
    Laws.RoundTrip.rdcr, fun _ v s h => exec_wrcr_not_writable h v s, fun _ s h => exec_rdcr_reserved h s⟩
  case decoder => rw [legalWord_iff_fieldsAccepted, exists_decode_ok_iff_fieldsAccepted]
  case map => rw [legalWord_iff_fieldsAccepted, exists_row_admits_iff_fieldsAccepted]

end Sys2Proof.Machine
end

section
/-! PROOF. The MSP XOR checksum (spec/40_checksum_xor.md R110 to R116): the laws of the fold, the checksum as its own
verifier, and the four operations of the accumulator. -/

namespace Sys2Proof.Machine

/-! ## The fold -/

@[simp] theorem xorFold_nil : xorFold [] = 0x00#8 := rfl

/-- R110, byte by byte from the left. -/
theorem xorFold_concat (s : List Byte) (b : Byte) : xorFold (s ++ [b]) = xorFold s ^^^ b := by
  simp [xorFold]

/-- The order of the bytes does not matter, because XOR is associative and commutative. -/
theorem xorFold_perm {s t : List Byte} (h : s.Perm t) : xorFold s = xorFold t :=
  h.foldl_eq (f := (· ^^^ ·)) 0x00#8

/-- Appending a byte cancels the fold exactly when the byte is the fold. -/
theorem xorFold_concat_eq_zero_iff (s : List Byte) (b : Byte) : xorFold (s ++ [b]) = 0x00#8 ↔ b = xorFold s := by
  rw [xorFold_concat, BitVec.xor_eq_zero_iff, eq_comm]

/-- R111: `validate` compares the received byte with the fold of length, command and payload. -/
theorem mspValidate_iff (n c r : Byte) (p : List Byte) :
    mspValidate n c p r = true ↔ r = xorFold ([n, c] ++ p) :=
  beq_iff_eq

/-- Settles O21: the laws of the fold, and `validate` by `mspValidate_iff` and the cancelling of a byte with itself. -/
theorem xorChecksumLaws : Obligations.XorChecksumLaws := by
  refine ⟨xorFold_nil, xorFold_concat, fun _ _ => xorFold_perm, fun _ _ _ => rfl, mspValidate_iff, ?ownVerifier⟩
  case ownVerifier =>
    intro n c r p
    rw [mspValidate_iff, xorFold_concat_eq_zero_iff]

/-! ## The accumulator -/

/-- R85: 0x30ii with `ii` not 0 is illegal. -/
theorem decode_xorInit_imm_ne_zero {imm : Byte} (h : imm ≠ 0#8) :
    decode (packWord 3 0 imm) = .error (.immNotZero (packWord 3 0 imm)) := by
  simpa [decode, decodeXor] using needZeroImm_packWord_error 3 0 h .xorInit

/-- R112. -/
theorem exec_xorInit (s : State) : exec .xorInit s = .next { s with xora := 0x00#8 } := rfl

/-- R113. -/
theorem exec_xorUpd (imm : Byte) (s : State) : exec (.xorUpd imm) s = .next { s with xora := s.xora ^^^ imm } := rfl

/-- R114. -/
theorem exec_xorRd (s : State) : exec .xorRd s = .next { s with events := s.events ++ [.val8 s.xora] } := rfl

/-- R115. -/
theorem exec_xorChk (imm : Byte) (s : State) : exec (.xorChk imm) s =
    .next { s with events := s.events ++ [.val8 (if s.xora = imm then 0x01#8 else 0x00#8)] } := rfl

/-- Settles O20: the round trips of the four words, and the effect of each operation. -/
theorem xorAccumulatorOperations : Obligations.XorAccumulatorOperations := by
  refine ⟨Laws.RoundTrip.xorInit, Laws.RoundTrip.xorRd, fun _ h => ⟨_, decode_xorInit_imm_ne_zero h⟩,
    fun imm => ⟨Laws.RoundTrip.xorUpd imm, Laws.RoundTrip.xorChk imm⟩, exec_xorInit, fun s imm => exec_xorUpd imm s,
    exec_xorRd, fun s imm h => ?equal, fun s imm h => ?differs, fun _ _ => rfl⟩
  case equal => rw [exec_xorChk, if_pos h]
  case differs => rw [exec_xorChk, if_neg h]

end Sys2Proof.Machine
end

section
/-! PROOF. The MSP receiver (spec/41_msp_framer.md R120 to R130): what a byte does in each state, and MSP_ABORT. -/

namespace Sys2Proof.Machine

/-- A byte counter goes up as a number does. -/
theorem add_one_eq_ofNat (n : Byte) : n + 1 = BitVec.ofNat 8 (n.toNat + 1) := by
  rw [BitVec.ofNat_add, BitVec.ofNat_toNat, BitVec.setWidth_eq]; rfl

/-! ## One rule for each state (R122) -/

theorem exec_mspPush_seekHeader {s : State} (h : s.mspSt = .seekHeader) (b : Byte) :
    exec (.mspPush b) s = .next (mspSeek b s) := by
  simp [exec, execMspPush, h]

/-- R124. -/
theorem exec_mspPush_readLength {s : State} (h : s.mspSt = .readLength) (b : Byte) :
    exec (.mspPush b) s = .next { s with mspLen := b, mspCk := b, mspSt := .readCommand } := by
  simp [exec, execMspPush, h, mspReadLength]

/-- R125. -/
theorem exec_mspPush_readCommand {s : State} (h : s.mspSt = .readCommand) (b : Byte) :
    exec (.mspPush b) s = .next { s with
      mspCmd := b
      mspCk := s.mspCk ^^^ b
      mspCnt := 0#8
      mspSt := if s.mspLen = 0#8 then .readChecksum else .readPayload } := by
  simp [exec, execMspPush, h, mspReadCommand]

/-- R126: a count below the length leaves room for the byte. -/
theorem exec_mspPush_readPayload {s : State} (h : s.mspSt = .readPayload) (hlt : s.mspCnt.toNat < s.mspLen.toNat)
    (b : Byte) : exec (.mspPush b) s = .next { s with
      mspPay := memWrite s.mspPay s.mspCnt.toNat b
      mspCk := s.mspCk ^^^ b
      mspCnt := BitVec.ofNat 8 (s.mspCnt.toNat + 1)
      mspSt := if s.mspCnt.toNat + 1 = s.mspLen.toNat then .readChecksum else .readPayload } := by
  have hlen := s.mspLen.isLt
  have hroom : s.mspCnt.toNat < Space.mspPay.size := show s.mspCnt.toNat < 255 by omega
  have hlast : BitVec.ofNat 8 (s.mspCnt.toNat + 1) = s.mspLen ↔ s.mspCnt.toNat + 1 = s.mspLen.toNat := by
    rw [← BitVec.toNat_inj, BitVec.toNat_ofNat, Nat.mod_eq_of_lt (by omega)]
  simp only [exec, execMspPush, h, mspReadPayload, checkRoom_ok hroom, add_one_eq_ofNat, hlast]

/-- R127, R128: an equal checksum reports the frame and re-arms. -/
theorem exec_mspPush_readChecksum_equal {s : State} {p : List Byte} (h : s.mspSt = .readChecksum)
    (hp : memPrefix s.mspPay s.mspLen.toNat = some p) :
    exec (.mspPush s.mspCk) s = .next { s with
      mspSt := .seekHeader
      hdr := 0#2
      events := s.events ++ [.msp 0x3E#8 s.mspLen s.mspCmd p] } := by
  simp [exec, execMspPush, h, mspReadChecksum, mspDone, loadBytes_ok hp, emit]

/-- R127: another byte sets the checksum flag and re-arms. -/
theorem exec_mspPush_readChecksum_differs {s : State} {b : Byte} (h : s.mspSt = .readChecksum) (hb : b ≠ s.mspCk) :
    exec (.mspPush b) s = .next { s with mspSt := .seekHeader, hdr := 0#2, crErr := s.crErr ||| 0x10#8 } := by
  simp only [exec, execMspPush, h, mspReadChecksum, if_neg hb]; rfl

/-! ## Header matching (R123) -/

theorem mspSeek_dollar {s : State} (h : s.hdr = 0#2) : mspSeek 0x24#8 s = { s with hdr := 1#2 } :=
  if_pos ⟨h, rfl⟩

theorem mspSeek_m {s : State} (h : s.hdr = 1#2) : mspSeek 0x4D#8 s = { s with hdr := 2#2 } := by
  simp [mspSeek, h]

theorem mspSeek_response {s : State} (h : s.hdr = 2#2) :
    mspSeek 0x3E#8 s = { s with hdr := 0#2, mspSt := .readLength } := by
  simp [mspSeek, h]

/-- A byte that does not go on with the header sets the desync flag; the search starts again, behind a `$` if the byte
is one. -/
theorem mspSeek_mismatch {b : Byte} {s : State} (hdollar : s.hdr = 0#2 → b ≠ 0x24#8)
    (hm : s.hdr = 1#2 → b ≠ 0x4D#8) (hresponse : s.hdr = 2#2 → b ≠ 0x3E#8) :
    mspSeek b s = { s with hdr := if b = 0x24#8 then 1#2 else 0#2, crErr := s.crErr ||| 0x08#8 } := by
  rcases mspSeek_cases b s with ⟨h, hb, -⟩ | ⟨h, hb, -⟩ | ⟨h, hb, -⟩ | ⟨-, -, -, heq⟩
  · exact absurd hb (hdollar h)
  · exact absurd hb (hm h)
  · exact absurd hb (hresponse h)
  · exact heq

/-- A `$` inside the header is the first byte of a new one. -/
theorem mspSeek_restart {s : State} (h : s.hdr = 1#2 ∨ s.hdr = 2#2) :
    mspSeek 0x24#8 s = { s with hdr := 1#2, crErr := s.crErr ||| 0x08#8 } := by
  refine mspSeek_mismatch (fun h0 => ?_) (fun _ => by decide) (fun _ => by decide)
  rcases h with h | h <;> simp [h] at h0

/-- Any other byte that does not go on with the header starts the search again. -/
theorem mspSeek_garbage {b : Byte} {s : State} (hb : b ≠ 0x24#8) (hm : s.hdr = 1#2 → b ≠ 0x4D#8)
    (hresponse : s.hdr = 2#2 → b ≠ 0x3E#8) :
    mspSeek b s = { s with hdr := 0#2, crErr := s.crErr ||| 0x08#8 } := by
  rw [mspSeek_mismatch (fun _ => hb) hm hresponse, if_neg hb]

/-! ## MSP_ABORT (R130) -/

theorem exec_mspAbort (s : State) :
    exec .mspAbort s = .next (mspDropFrame (if s.mspSt = .seekHeader then s else setFlag .trunc s)) := rfl

/-- Settles O26: each row is the rule of its state; the rows of SeekHeader are those of header matching. -/
theorem mspReceiverFollowsTransitionTable : Obligations.MspReceiverFollowsTransitionTable := by
  refine ⟨Laws.RoundTrip.mspPush, ?dollar, ?notDollar, ?m, ?response, ?restart, ?garbage,
    fun _ b h => exec_mspPush_readLength h b, ?noPayload, ?payload, ?payloadByte, ?lastByte,
    fun _ _ h hp => exec_mspPush_readChecksum_equal h hp, fun _ _ h hb => exec_mspPush_readChecksum_differs h hb,
    Laws.RoundTrip.mspAbort, ?abort, ?abortIdle⟩
  case dollar => exact fun s h hhdr => by rw [exec_mspPush_seekHeader h, mspSeek_dollar hhdr]
  case notDollar =>
    intro s b h hhdr hb
    rw [exec_mspPush_seekHeader h, mspSeek_garbage hb (by simp [hhdr]) (by simp [hhdr]), ← hhdr]
  case m => exact fun s h hhdr => by rw [exec_mspPush_seekHeader h, mspSeek_m hhdr]
  case response => exact fun s h hhdr => by rw [exec_mspPush_seekHeader h, mspSeek_response hhdr]
  case restart => exact fun s h hhdr => by rw [exec_mspPush_seekHeader h, mspSeek_restart hhdr]
  case garbage =>
    intro s b h hrow hb
    rw [exec_mspPush_seekHeader h, mspSeek_garbage hb]
    · rintro hhdr rfl; simp [hhdr] at hrow
    · rintro hhdr rfl; simp [hhdr] at hrow
  case noPayload => exact fun s b h hlen => by rw [exec_mspPush_readCommand h, if_pos hlen]
  case payload => exact fun s b h hlen => by rw [exec_mspPush_readCommand h, if_neg hlen]
  case payloadByte =>
    intro s b h hcnt
    rw [exec_mspPush_readPayload h (by omega), if_neg (by omega), ← h]
  case lastByte =>
    intro s b h hcnt
    rw [exec_mspPush_readPayload h (by omega), if_pos hcnt, hcnt, BitVec.ofNat_toNat, BitVec.setWidth_eq]
  case abort => exact fun s h => by rw [exec_mspAbort, if_neg h]; rfl
  case abortIdle => exact fun s h => by rw [exec_mspAbort, if_pos h, mspDropFrame, ← h]

end Sys2Proof.Machine
end

section
/-! PROOF. The MSP request encoder (spec/41_msp_framer.md R131 to R134): the three operations, and a whole request. The
staging is followed byte by byte, below the limit of 255 bytes and at it. -/

namespace Sys2Proof.Machine

/-! ## The three operations -/

/-- R131. -/
theorem exec_encOpen (c : Byte) (s : State) :
    exec (.encOpen c) s = .next { s with txCmd := c, txN := 0#8, txOvf := false } := rfl

/-- R132, below the limit. -/
theorem exec_encByte_stages {s : State} (h : s.txN.toNat < 255) (b : Byte) : exec (.encByte b) s =
    .next { s with txb := memWrite s.txb s.txN.toNat b, txN := BitVec.ofNat 8 (s.txN.toNat + 1) } := by
  show execEncByte b s = _
  rcases execEncByte_cases b s with ⟨-, heq⟩ | ⟨hfull, -⟩
  · rw [heq, add_one_eq_ofNat]
  · omega

/-- R132, at the limit. -/
theorem exec_encByte_full {s : State} (h : s.txN.toNat = 255) (b : Byte) :
    exec (.encByte b) s = .next { s with txOvf := true } := by
  show execEncByte b s = _
  rcases execEncByte_cases b s with ⟨hlt, -⟩ | ⟨-, heq⟩
  · omega
  · exact heq

/-- R133, with more bytes sent than fit. -/
theorem exec_encClose_overflow {s : State} (h : s.txOvf = true) : exec .encClose s =
    .next { s with
      events := s.events ++ [.err .payloadTooLarge], crErr := s.crErr ||| 0x20#8, txN := 0#8, txOvf := false } := by
  simp only [exec, execEncClose, h, if_true]; rfl

/-- R133, with the staged bytes `p`. -/
theorem exec_encClose_emits {s : State} {p : List Byte} (hovf : s.txOvf = false)
    (hp : memPrefix s.txb s.txN.toNat = some p) : exec .encClose s =
      .next { s with events := s.events ++ [.tx (mspEncode s.txCmd p)], txN := 0#8, txOvf := false } := by
  simp [exec, execEncClose, hovf, loadBytes_ok hp, encRelease, emit]

/-! ## `msp_encode` (R134) -/

theorem mspEncode_eq (c : Byte) (p : List Byte) : mspEncode c p =
    [0x24#8, 0x4D#8, 0x3C#8, BitVec.ofNat 8 p.length, c] ++ p ++ [xorFold ([BitVec.ofNat 8 p.length, c] ++ p)] := rfl

theorem mspEncode_length (c : Byte) (p : List Byte) : (mspEncode c p).length = 6 + p.length := by
  simp [mspEncode]; omega

/-- Settles O29: the round trips of the three words, and the effect of each operation in each case. -/
theorem encoderOperations : Obligations.EncoderOperations := by
  refine ⟨fun imm => ⟨Laws.RoundTrip.encOpen imm, Laws.RoundTrip.encByte imm⟩, Laws.RoundTrip.encClose,
    fun s imm => exec_encOpen imm s, fun _ imm h => exec_encByte_stages h imm, fun _ imm h => exec_encByte_full h imm,
    fun _ h => exec_encClose_overflow h, ?emits⟩
  case emits =>
    intro s p hovf hp
    rw [exec_encClose_emits hovf hp, mspEncode_eq, memPrefix_length hp, BitVec.ofNat_toNat, BitVec.setWidth_eq]

/-! ## A request (R89, R133) -/

/-- A sequence of operations goes on behind its first one. -/
theorem execAll_cons_next {i : Instr} {s t : State} (h : exec i s = .next t) (is : List Instr) :
    execAll (i :: is) s = execAll is t := by
  simp [execAll, h]

/-- A sequence of operations goes on behind its first part. -/
theorem execAll_append_next {is js : List Instr} {s t : State} (h : execAll is s = .next t) :
    execAll (is ++ js) s = execAll js t := by
  rw [execAll_append, h]

/-- R132 for each byte of `p`, with `q` staged and room for both: `q ++ p` is staged. -/
theorem execAll_encByte_stages (p : List Byte) {q : List Byte} {s : State} (hq : memPrefix s.txb s.txN.toNat = some q)
    (hroom : s.txN.toNat + p.length ≤ 255) :
    ∃ txb : Memory, memPrefix txb (s.txN.toNat + p.length) = some (q ++ p) ∧
      execAll (p.map .encByte) s =
        .next { s with txb := txb, txN := BitVec.ofNat 8 (s.txN.toNat + p.length) } := by
  induction p generalizing q s with
  | nil => exact ⟨s.txb, by simpa using hq, by simp [execAll]⟩
  | cons b p ih =>
    rw [List.length_cons] at hroom
    have hcnt : (BitVec.ofNat 8 (s.txN.toNat + 1)).toNat = s.txN.toNat + 1 := Nat.mod_eq_of_lt (by omega)
    obtain ⟨txb, htxb, hrun⟩ := ih (q := q ++ [b])
      (s := { s with txb := memWrite s.txb s.txN.toNat b, txN := BitVec.ofNat 8 (s.txN.toNat + 1) })
      (by rw [hcnt]; exact memPrefix_memWrite_push b hq) (by rw [hcnt]; omega)
    rw [hcnt, Nat.add_assoc, Nat.add_comm 1] at htxb hrun
    refine ⟨txb, by simpa using htxb, ?_⟩
    rw [List.map_cons, execAll_cons_next (exec_encByte_stages (by omega) b), hrun]
    rfl

/-- R132 for each byte of `p`, with 255 bytes staged: no byte is stored, and one of them is enough for TXOVF. -/
theorem execAll_encByte_full (p : List Byte) {s : State} (h : s.txN.toNat = 255) :
    execAll (p.map .encByte) s = .next { s with txOvf := s.txOvf || !p.isEmpty } := by
  induction p generalizing s with
  | nil => simp [execAll]
  | cons b p ih =>
    rw [List.map_cons, execAll_cons_next (exec_encByte_full h b), ih (s := { s with txOvf := true }) h]
    simp

/-- ENC_OPEN and up to 255 times ENC_BYTE stage the command and the bytes. -/
theorem execAll_encOpen_encByte (c : Byte) {p : List Byte} (h : p.length ≤ 255) (s : State) :
    ∃ txb : Memory, memPrefix txb p.length = some p ∧
      execAll (.encOpen c :: p.map .encByte) s =
        .next { s with txCmd := c, txb := txb, txN := BitVec.ofNat 8 p.length, txOvf := false } := by
  simpa [execAll_cons_next (exec_encOpen c s)] using
    execAll_encByte_stages p (q := []) (s := { s with txCmd := c, txN := 0#8, txOvf := false }) rfl (by simpa using h)

/-- R134 for a payload that fits. -/
theorem execAll_mspReq_fits (c : Byte) {p : List Byte} (h : p.length ≤ 255) (s : State) :
    ∃ txb : Memory, execAll (mspReq c p) s = .next { s with
      txCmd := c, txN := 0#8, txOvf := false, txb := txb, events := s.events ++ [.tx (mspEncode c p)] } := by
  obtain ⟨txb, htxb, hrun⟩ := execAll_encOpen_encByte c h s
  have hcnt : (BitVec.ofNat 8 p.length).toNat = p.length := Nat.mod_eq_of_lt (by omega)
  rw [← hcnt] at htxb
  refine ⟨txb, ?_⟩
  rw [mspReq, execAll_append_next hrun, execAll_cons_next (exec_encClose_emits rfl htxb)]
  rfl

/-- R134 for a payload that does not fit: the first 255 bytes are staged, the others only set TXOVF. -/
theorem execAll_mspReq_tooLong (c : Byte) {p : List Byte} (h : 255 < p.length) (s : State) :
    ∃ txb : Memory, execAll (mspReq c p) s = .next { s with
      txCmd := c, txN := 0#8, txOvf := false, txb := txb
      events := s.events ++ [.err .payloadTooLarge], crErr := s.crErr ||| 0x20#8 } := by
  have hlen : (p.take 255).length = 255 := by rw [List.length_take]; omega
  obtain ⟨txb, -, hrun⟩ := execAll_encOpen_encByte c hlen.le s
  have hsplit : mspReq c p =
      (.encOpen c :: (p.take 255).map .encByte) ++ ((p.drop 255).map .encByte ++ [.encClose]) := by
    rw [← List.append_assoc, List.cons_append, ← List.map_append, List.take_append_drop, mspReq]
  have hrest : (p.drop 255).isEmpty = false := by simpa using h
  refine ⟨txb, ?_⟩
  rw [hsplit, execAll_append_next hrun, execAll_append_next (execAll_encByte_full _ (by rw [hlen]; rfl)),
    execAll_cons_next (exec_encClose_overflow (by simp [hrest]))]
  rfl

/-- Settles O30: a payload that fits and one that does not, and `msp_encode` by its definition. -/
theorem requestSequencesEncodeOrRaise : Obligations.RequestSequencesEncodeOrRaise :=
  ⟨fun s c _ h => execAll_mspReq_fits c h s, fun s c _ h => execAll_mspReq_tooLong c h s,
    fun c p _ => mspEncode_eq c p, mspEncode_length⟩

end Sys2Proof.Machine
end

section
/-! PROOF. The CRC-8 accumulator (spec/42_crc8.md R142 to R145): the three operations, and the sequence of them that
reports `crc8`. -/

namespace Sys2Proof.Machine

/-! ## The three operations -/

/-- R85: 0x50ii with `ii` not 0 is illegal. -/
theorem decode_crcInit_imm_ne_zero {imm : Byte} (h : imm ≠ 0#8) :
    decode (packWord 5 0 imm) = .error (.immNotZero (packWord 5 0 imm)) := by
  simpa [decode, decodeCrc] using needZeroImm_packWord_error 5 0 h .crcInit

/-- R143. -/
theorem exec_crcInit (s : State) : exec .crcInit s = .next { s with crca := 0x00#8 } := rfl

/-- R144. -/
theorem exec_crcUpd (imm : Byte) (s : State) :
    exec (.crcUpd imm) s = .next { s with crca := crcRom (s.crca ^^^ imm) } := rfl

/-- R145. -/
theorem exec_crcRd (s : State) : exec .crcRd s = .next { s with events := s.events ++ [.val8 s.crca] } := rfl

/-! ## A sequence (R89) -/

/-- R144 for each byte: the accumulator goes on with the fold of R142 from where it stands. -/
theorem execAll_crcUpd (bytes : List Byte) (s : State) :
    execAll (bytes.map .crcUpd) s = .next { s with crca := bytes.foldl (crcStep crcRom) s.crca } := by
  induction bytes generalizing s with
  | nil => rfl
  | cons b bytes ih =>
    rw [List.map_cons, execAll_cons_next (exec_crcUpd b s), ih]
    rfl

/-- R89: CRC_INIT starts the fold at 0, and CRC_RD reports where it ends. -/
theorem execAll_crcSum (bytes : List Byte) (s : State) : execAll (crcSum bytes) s =
    .next { s with crca := crc8 bytes, events := s.events ++ [.val8 (crc8 bytes)] } := by
  rw [crcSum, List.cons_append, execAll_cons_next (exec_crcInit s), execAll_append_next (execAll_crcUpd bytes _),
    execAll_cons_next (exec_crcRd _)]
  rfl

/-- Settles O24: the words, the effect of each operation, and the sequence by induction over its bytes. -/
theorem crcAccumulatorOperations : Obligations.CrcAccumulatorOperations :=
  ⟨Laws.RoundTrip.crcInit, Laws.RoundTrip.crcRd, fun _ h => ⟨_, decode_crcInit_imm_ne_zero h⟩,
    Laws.RoundTrip.crcUpd, exec_crcInit, fun s imm => exec_crcUpd imm s, exec_crcRd,
    fun s bytes => execAll_crcSum bytes s⟩

end Sys2Proof.Machine
end

section
/-! PROOF. The CRSF search (spec/43_crsf_parser.md R152 to R158): where each field of a candidate lies in CBUF, and one
rule for each step of a round. -/

namespace Sys2Proof.Machine

/-! ## The fields of a candidate (R91, R156) -/

section Candidate

variable {s : State} {a l c ty : Byte} {body payload rest more : List Byte} {n : Nat}

/-- The bytes from index 2 to the length, which the CRC covers. -/
theorem slice_two_candidate (h : body.length + 1 = n) : slice (a :: l :: (body ++ rest)) 2 n = body :=
  List.take_left' (by omega)

/-- The byte behind those that the CRC covers. -/
theorem getD_crc_candidate (h : body.length + 1 = n) : (a :: l :: (body ++ c :: more)).getD (n + 1) 0 = c := by
  subst h
  simp

/-- The bytes from index 3 to the length, those of the payload. -/
theorem slice_three_candidate (h : payload.length + 2 = n) :
    slice (a :: l :: (ty :: payload ++ rest)) 3 n = payload :=
  List.take_left' (by omega)

/-- A frame takes two bytes more than its length byte says. -/
theorem ValidFrame.length_frameBytes (h : ValidFrame s l body) (rom : Byte → Byte) :
    (frameBytes rom s l body).length = l.toNat + 2 := by
  simp [frameBytes, h.bodyLength]

theorem ValidFrame.validLength (h : ValidFrame s l body) : validLength s l = true :=
  (validLength_iff s l).2 ⟨h.lengthLow, h.lengthHigh⟩

end Candidate

/-! ## One rule for each step of a round -/

section Round

variable {rom : Byte → Byte} {s : State} {a l c ty : Byte} {body payload rest more : List Byte}

theorem dropOne_of_cons (f : ErrFlag) (h : s.cbuf = a :: rest) :
    dropOne f s = { s with cbuf := rest, crErr := s.crErr ||| f.mask } := by
  simp [dropOne, setFlag, h]

/-- R153, step (b). -/
theorem searchRound_desync (hc : s.cbuf = a :: l :: rest) (ha : a ≠ s.crAddr) :
    searchRound rom s = some { s with cbuf := l :: rest, crErr := s.crErr ||| 0x01#8 } := by
  have hround : searchRound rom s = some (dropOne .crsfDesync s) := by simp [searchRound, hc, ha]
  rw [hround, dropOne_of_cons _ hc]
  rfl

/-- R154, step (c). -/
theorem searchRound_invalidLength (hc : s.cbuf = s.crAddr :: l :: rest)
    (hl : l.toNat < 2 ∨ s.crMaxlen.toNat < l.toNat) :
    searchRound rom s = some { s with cbuf := l :: rest, crErr := s.crErr ||| 0x02#8 } := by
  have hinvalid : validLength s l = false := by
    rw [← Bool.not_eq_true, validLength_iff]
    omega
  have hround : searchRound rom s = some (dropOne .crsfLeninv s) := by simp [searchRound, hc, hinvalid]
  rw [hround, dropOne_of_cons _ hc]
  rfl

/-- R155, step (d). -/
theorem searchRound_incomplete (hc : s.cbuf = s.crAddr :: l :: rest) (hlow : 2 ≤ l.toNat)
    (hhigh : l.toNat ≤ s.crMaxlen.toNat) (hlen : rest.length < l.toNat) : searchRound rom s = none :=
  (searchRound_eq_none_iff rom s).2
    (.inr ⟨l, rest, hc, (validLength_iff s l).2 ⟨hlow, hhigh⟩, by simpa [hc] using hlen⟩)

/-- R156, step (e): a round on a complete candidate turns on its CRC alone. -/
theorem searchRound_candidate (hc : s.cbuf = s.crAddr :: l :: (body ++ c :: more)) (hv : ValidFrame s l body) :
    searchRound rom s =
      if crc8With rom body ≠ c then some (dropOne .crsfCrcerr s) else some (acceptFrame l.toNat s) := by
  have hcomplete : ¬ s.cbuf.length < l.toNat + 2 := by
    have := hv.bodyLength
    simp only [hc, List.length_cons, List.length_append]
    omega
  have hcrc : crc8With rom (slice s.cbuf 2 l.toNat) = crc8With rom body := by
    rw [hc, slice_two_candidate hv.bodyLength]
  have hbyte : s.cbuf.getD (l.toNat + 1) 0 = c := by rw [hc, getD_crc_candidate hv.bodyLength]
  unfold searchRound
  split
  next a l' rest heq =>
    obtain ⟨rfl, rfl, -⟩ : s.crAddr = a ∧ l = l' ∧ body ++ c :: more = rest := by simpa [hc] using heq
    rw [if_neg (not_not.2 rfl), if_neg (by simp [hv.validLength]), if_neg hcomplete, hcrc, hbyte]
  next hshort => exact absurd hc (hshort _ _ _)

/-- R156, with a CRC that differs. -/
theorem searchRound_crcError (hc : s.cbuf = s.crAddr :: l :: (body ++ c :: more)) (hv : ValidFrame s l body)
    (hcrc : crc8With rom body ≠ c) :
    searchRound rom s = some { s with cbuf := l :: (body ++ c :: more), crErr := s.crErr ||| 0x04#8 } := by
  rw [searchRound_candidate hc hv, if_pos hcrc, dropOne_of_cons _ hc]
  rfl

/-! ## Accepting (R157, R158, R176) -/

/-- R156, with the CRC of the body: the frame at the front is accepted. -/
theorem searchRound_frameBytes (hc : s.cbuf = frameBytes rom s l body ++ more) (hv : ValidFrame s l body) :
    searchRound rom s = some (acceptFrame l.toNat s) := by
  rw [searchRound_candidate (c := crc8With rom body) (by simpa [frameBytes] using hc) hv, if_neg (not_not.2 rfl)]

/-- The bytes that EV_FRAME carries. -/
theorem slice_cbuf_frameBytes (hc : s.cbuf = frameBytes rom s l body ++ more) (hv : ValidFrame s l body) :
    slice s.cbuf 0 (l.toNat + 1) = frameBytes rom s l body := by
  rw [slice_zero, hc, List.take_left' (hv.length_frameBytes rom)]

/-- The bytes that stay. -/
theorem drop_cbuf_frameBytes (hc : s.cbuf = frameBytes rom s l body ++ more) (hv : ValidFrame s l body) :
    s.cbuf.drop (l.toNat + 2) = more := by
  rw [hc, List.drop_left' (hv.length_frameBytes rom)]

/-- The bytes that go to the RC stage. -/
theorem slice_payload_frameBytes (hv : ValidFrame s l (ty :: payload)) :
    slice (frameBytes rom s l (ty :: payload)) 3 l.toNat = payload :=
  slice_three_candidate hv.bodyLength

/-- R158, another type. -/
theorem searchRound_otherType (hc : s.cbuf = frameBytes rom s l (ty :: payload) ++ more)
    (hv : ValidFrame s l (ty :: payload)) (hty : ty ≠ s.crRctype) :
    searchRound rom s =
      some { s with
        cbuf := more, age := 0, seen := true
        events := s.events ++ [.frame (frameBytes rom s l (ty :: payload))] } := by
  have hf := slice_cbuf_frameBytes hc hv
  rw [searchRound_frameBytes hc hv, acceptFrame_other (by rw [hf]; exact hty), hf, drop_cbuf_frameBytes hc hv]

/-- R176, with a payload of 22 bytes. -/
theorem searchRound_rcFrame (hc : s.cbuf = frameBytes rom s l (s.crRctype :: payload) ++ more)
    (hv : ValidFrame s l (s.crRctype :: payload)) (hlen : payload.length = 22) :
    searchRound rom s =
      some { s with
        cbuf := more, age := 0, seen := true
        win := pushAll s.crMfwin.toNat s.win (decodeChannels payload)
        ch := filterAll s.crMfwin.toNat (pushAll s.crMfwin.toNat s.win (decodeChannels payload))
          (decodeChannels payload)
        events := s.events ++ [.frame (frameBytes rom s l (s.crRctype :: payload)),
          .chan (filterAll s.crMfwin.toNat (pushAll s.crMfwin.toNat s.win (decodeChannels payload))
            (decodeChannels payload))] } := by
  have hf := slice_cbuf_frameBytes hc hv
  have hq := slice_payload_frameBytes (rom := rom) hv
  rw [searchRound_frameBytes hc hv,
    acceptFrame_rc (us := decodeChannels payload) (by rw [hf]; rfl) (by rw [hf, hq, hlen]) (by rw [hf, hq]), hf,
    drop_cbuf_frameBytes hc hv]

/-- R176, with a payload of another length. -/
theorem searchRound_rcBadLength (hc : s.cbuf = frameBytes rom s l (s.crRctype :: payload) ++ more)
    (hv : ValidFrame s l (s.crRctype :: payload)) (hlen : payload.length ≠ 22) :
    searchRound rom s =
      some { s with
        cbuf := more, age := 0, seen := true
        events := s.events ++ [.frame (frameBytes rom s l (s.crRctype :: payload)), .err .invalidPayloadLength]
        crErr := s.crErr ||| 0x20#8 } := by
  have hf := slice_cbuf_frameBytes hc hv
  have hq := slice_payload_frameBytes (rom := rom) hv
  rw [searchRound_frameBytes hc hv, acceptFrame_badLength (by rw [hf]; rfl) (by rw [hf, hq]; exact hlen), hf,
    drop_cbuf_frameBytes hc hv]
  rfl

end Round

/-- Settles O32: the search goes on with each round that does, and each clause is the rule of its step. -/
theorem searchRoundFollowsItsSteps : Obligations.SearchRoundFollowsItsSteps := fun rom =>
  ⟨fun _ => processCrsf_of_none,
    fun _ _ => processCrsf_of_some,
    fun s h => (searchRound_eq_none_iff rom s).2 (.inl h),
    fun _ _ _ _ => searchRound_desync,
    fun _ _ _ => searchRound_invalidLength,
    fun _ _ _ => searchRound_incomplete,
    fun _ _ _ _ _ => searchRound_crcError,
    fun _ _ _ _ _ => searchRound_otherType,
    fun _ _ _ _ => searchRound_rcFrame,
    fun _ _ _ _ => searchRound_rcBadLength⟩

end Sys2Proof.Machine
end

section
/-! PROOF. The microsecond map (spec/44_channel_decoder.md R173): one description of its value, from which its forms
follow. -/

namespace Sys2Proof.Machine

/-- R173: 988 plus a quotient of at most 1056 fits in the 16 bits that hold the value. -/
theorem mapUs_toNat (r : Raw) : (mapUs r).toNat = 988 + r.toNat * 1024 / 1984 := by
  have hr := r.isLt
  exact Nat.mod_eq_of_lt (show 988 + r.toNat * 1024 / 1984 < 2 ^ 16 by omega)

/-- R173 with the fraction 1024 / 1984 reduced by 64. -/
theorem mapUs_toNat_reduced (r : Raw) : (mapUs r).toNat = 988 + 16 * r.toNat / 31 := by
  rw [mapUs_toNat]
  omega

/-- R175: the largest value is that of the largest raw value. -/
theorem mapUs_toNat_le (r : Raw) : (mapUs r).toNat ≤ 2044 := by
  have hr := r.isLt
  rw [mapUs_toNat]
  omega

/-- Settles O39: the second form is the first with 2012 - 988 computed, the third the first reduced. -/
theorem microsecondMapFormula : Obligations.MicrosecondMapFormula :=
  ⟨mapUs_toNat, mapUs_toNat, mapUs_toNat_reduced, mapUs_toNat_le⟩

end Sys2Proof.Machine
end

section
/-! PROOF. The stand-alone channel decoder (spec/44_channel_decoder.md R177 to R179): one rule for each of the three
operations in each of its cases. -/

namespace Sys2Proof.Machine

/-- R177. -/
theorem exec_decOpen (s : State) : exec .decOpen s = .next { s with dn := 0#5, dOvf := false } := rfl

/-- A counter of any width goes up as a number does. -/
theorem bitVec_add_one_eq_ofNat {w : Nat} (n : BitVec w) : n + 1 = BitVec.ofNat w (n.toNat + 1) := by
  rw [BitVec.ofNat_add, BitVec.ofNat_toNat, BitVec.setWidth_eq]
  rfl

/-- R178, below the limit. -/
theorem exec_decByte_stages {s : State} (h : s.dn.toNat < 22) (b : Byte) : exec (.decByte b) s =
    .next { s with dbuf := memWrite s.dbuf s.dn.toNat b, dn := BitVec.ofNat 5 (s.dn.toNat + 1) } := by
  show execDecByte b s = _
  rcases execDecByte_cases b s with ⟨-, heq⟩ | ⟨hfull, -⟩
  · rw [heq, bitVec_add_one_eq_ofNat]
  · omega

/-- R178, at the limit. -/
theorem exec_decByte_full {s : State} (h : 22 ≤ s.dn.toNat) (b : Byte) :
    exec (.decByte b) s = .next { s with dOvf := true } := by
  show execDecByte b s = _
  rcases execDecByte_cases b s with ⟨hlt, -⟩ | ⟨-, heq⟩
  · omega
  · exact heq

/-- What DEC_CLOSE asks for, in the bits of DN, is that exactly 22 bytes were offered (R179). -/
theorem dn_eq_and_dOvf_iff (s : State) : s.dn = 22#5 ∧ s.dOvf = false ↔ s.dn.toNat = 22 ∧ s.dOvf = false := by
  rw [← BitVec.toNat_inj]
  rfl

/-- R179, with the 22 staged bytes `p`. -/
theorem exec_decClose_emits {s : State} {p : List Byte} (hn : s.dn.toNat = 22) (hovf : s.dOvf = false)
    (hp : memPrefix s.dbuf 22 = some p) : exec .decClose s =
      .next { s with events := s.events ++ [.dec (decodeChannels p)], dn := 0#5, dOvf := false } := by
  have hexact := (dn_eq_and_dOvf_iff s).2 ⟨hn, hovf⟩
  simp [exec, execDecClose, hexact, loadBytes_ok hp, decRelease, emit]

/-- R179, with fewer than 22 bytes staged, or with more sent than fit. -/
theorem exec_decClose_raises {s : State} (h : s.dn.toNat ≠ 22 ∨ s.dOvf = true) : exec .decClose s =
    .next { s with
      events := s.events ++ [.err .invalidPayloadLength], crErr := s.crErr ||| 0x20#8, dn := 0#5, dOvf := false } := by
  have hbad : ¬ (s.dn = 22#5 ∧ s.dOvf = false) := by
    rw [dn_eq_and_dOvf_iff]
    rintro ⟨hn, hovf⟩
    simp [hn, hovf] at h
  show execDecClose s = _
  rw [execDecClose, if_neg hbad]
  rfl

/-- Settles O41: the round trips of the three words, and the effect of each operation in each case. -/
theorem standAloneDecoderOperations : Obligations.StandAloneDecoderOperations :=
  ⟨Laws.RoundTrip.decOpen, Laws.RoundTrip.decClose, Laws.RoundTrip.decByte, exec_decOpen,
    fun _ imm h => exec_decByte_stages h imm, fun _ imm h => exec_decByte_full h imm,
    fun _ _ => exec_decClose_emits, fun _ => exec_decClose_raises⟩

end Sys2Proof.Machine
end

section
/-! PROOF. The median (spec/45_median_filter.md R192). The model's sort is Mathlib's insertion sort, so its result is the
only non-decreasing rearrangement of the window, and the median can be read from any such rearrangement. -/

namespace Sys2Proof.Machine

/-! ## The sort -/

/-- The model's insertion is the library's. -/
theorem insertSorted_eq_orderedInsert (v : Val) (x : List Val) : insertSorted v x = x.orderedInsert (· ≤ ·) v := by
  induction x with
  | nil => rfl
  | cons a x ih => rw [insertSorted, List.orderedInsert_cons, ih]

/-- The model's sort is the library's. -/
theorem sortVals_eq_insertionSort (x : List Val) : sortVals x = x.insertionSort (· ≤ ·) := by
  induction x with
  | nil => rfl
  | cons a x ih => rw [sortVals, List.insertionSort_cons, ih, insertSorted_eq_orderedInsert]

theorem sortVals_perm (x : List Val) : (sortVals x).Perm x := by
  rw [sortVals_eq_insertionSort]
  exact List.perm_insertionSort _ x

theorem sortVals_pairwise (x : List Val) : (sortVals x).Pairwise (· ≤ ·) := by
  rw [sortVals_eq_insertionSort]
  exact List.pairwise_insertionSort _ x

@[simp] theorem length_sortVals (x : List Val) : (sortVals x).length = x.length := (sortVals_perm x).length_eq

/-- A sequence has one rearrangement in non-decreasing order. -/
theorem eq_sortVals {x s : List Val} (hp : s.Perm x) (hs : s.Pairwise (· ≤ ·)) : s = sortVals x :=
  (hp.trans (sortVals_perm x).symm).eq_of_pairwise' hs (sortVals_pairwise x)

theorem sortVals_eq_of_perm {x y : List Val} (h : x.Perm y) : sortVals x = sortVals y :=
  eq_sortVals ((sortVals_perm x).trans h) (sortVals_pairwise x)

/-! ## The median -/

/-- R192, an odd number of values: such a window is not empty, so its middle is there. -/
theorem getElem?_sortVals_median {x : List Val} (h : x.length % 2 = 1) :
    (sortVals x)[(x.length - 1) / 2]? = some (median x) := by
  have hlt : (x.length - 1) / 2 < (sortVals x).length := by
    rw [length_sortVals]
    omega
  rw [median, if_pos h, List.getD_eq_getElem _ _ hlt, List.getElem?_eq_getElem hlt]

/-- R192, an even number of values: the sum may take 17 bits, but its half fits in 16. -/
theorem median_toNat_of_even {x : List Val} {a b : Val} (h : x.length % 2 = 0)
    (ha : (sortVals x)[x.length / 2 - 1]? = some a) (hb : (sortVals x)[x.length / 2]? = some b) :
    (median x).toNat = (a.toNat + b.toNat) / 2 := by
  have hodd : ¬ x.length % 2 = 1 := by omega
  have hfits : (a.toNat + b.toNat) / 2 < 2 ^ 16 := by omega
  rw [median, if_neg hodd, List.getD_eq_getElem?_getD, List.getD_eq_getElem?_getD, ha, hb]
  exact Nat.mod_eq_of_lt hfits

theorem median_eq_of_perm {x y : List Val} (h : x.Perm y) : median x = median y := by
  rw [median, median, sortVals_eq_of_perm h, h.length_eq]

/-- Settles O44: every non-decreasing rearrangement of the window is the sorted window, where the median is the middle. -/
theorem medianIsTheMiddleOfTheSortedWindow : Obligations.MedianIsTheMiddleOfTheSortedWindow := by
  refine ⟨fun x => ⟨sortVals_perm x, sortVals_pairwise x⟩, fun x s hp hs hodd => ?_,
    fun x s a b hp hs heven ha hb => ?_, fun _ _ => median_eq_of_perm⟩
  · rw [eq_sortVals hp hs]
    exact getElem?_sortVals_median hodd
  · rw [eq_sortVals hp hs] at ha hb
    exact median_toNat_of_even heven ha hb

end Sys2Proof.Machine
end

section
/-! PROOF. The session and system operations (spec/46_session_system_ops.md R201 to R208): the halves of OPR, the values
after a reset, the age counter, the channel report, and the control registers by their numbers. -/

namespace Sys2Proof.Machine

/-! ## The halves of OPR (R21) -/

theorem lowByte_toNat (v : Val) : (lowByte v).toNat = v.toNat % 256 := by
  simp [lowByte]

theorem highByte_toNat (v : Val) : (highByte v).toNat = v.toNat / 256 := by
  have := v.isLt
  simp only [highByte, BitVec.extractLsb'_toNat, Nat.shiftRight_eq_div_pow]
  omega

theorem withLowByte_toNat (v : Val) (b : Byte) : (withLowByte v b).toNat = v.toNat / 256 * 256 + b.toNat := by
  rw [← highByte_toNat]
  exact toNat_append_eq (highByte v) b

theorem withHighByte_toNat (v : Val) (b : Byte) : (withHighByte v b).toNat = b.toNat * 256 + v.toNat % 256 := by
  rw [← lowByte_toNat]
  exact toNat_append_eq b (lowByte v)

/-- Writing both halves of a value over any other gives the value. -/
theorem withHighByte_withLowByte (u v : Val) : withHighByte (withLowByte u (lowByte v)) (highByte v) = v := by
  apply BitVec.eq_of_toNat_eq
  rw [withHighByte_toNat, withLowByte_toNat, lowByte_toNat, highByte_toNat]
  omega

/-! ## OPLO, OPHI and LDOP (R205, R206, R89) -/

theorem exec_oplo (imm : Byte) (s : State) : exec (.oplo imm) s = .next { s with opr := withLowByte s.opr imm } := rfl

theorem exec_ophi (imm : Byte) (s : State) : exec (.ophi imm) s = .next { s with opr := withHighByte s.opr imm } := rfl

theorem execAll_loadOpr (v : Val) (s : State) : execAll (loadOpr v) s = .next { s with opr := v } := by
  rw [loadOpr, execAll_cons_next (exec_oplo _ s), execAll_cons_next (exec_ophi _ _), execAll,
    withHighByte_withLowByte]

/-! ## GETCH (R202) -/

theorem channelOfImm_eq_some {imm : Byte} {k : Fin 16} (h : imm.toNat = k.val + 1) : channelOfImm imm = some k := by
  have hk := k.isLt
  rw [channelOfImm, dif_pos (by omega)]
  exact congrArg some (Fin.ext (show imm.toNat - 1 = k.val by omega))

theorem channelOfImm_eq_none {imm : Byte} (h : imm.toNat = 0 ∨ 17 ≤ imm.toNat) : channelOfImm imm = none :=
  dif_neg (by omega)

theorem exec_getch_channel {imm : Byte} {k : Fin 16} (h : imm.toNat = k.val + 1) (s : State) :
    exec (.getch imm) s = .next (emit (.val16 s.ch[k]) s) := by
  simp only [exec, execGetch, channelOfImm_eq_some h]

theorem exec_getch_outOfRange {imm : Byte} (h : imm.toNat = 0 ∨ 17 ≤ imm.toNat) (s : State) :
    exec (.getch imm) s = .next (raise .outOfRange s) := by
  simp only [exec, execGetch, channelOfImm_eq_none h]

/-- All that GETCH can do. -/
theorem exec_getch_cases (imm : Byte) (s : State) :
    (∃ k : Fin 16, exec (.getch imm) s = .next (emit (.val16 s.ch[k]) s)) ∨
      exec (.getch imm) s = .next (raise .outOfRange s) := by
  by_cases h : imm.toNat = 0 ∨ 17 ≤ imm.toNat
  · exact .inr (exec_getch_outOfRange h s)
  · exact .inl ⟨⟨imm.toNat - 1, by omega⟩, exec_getch_channel (show imm.toNat = imm.toNat - 1 + 1 by omega) s⟩

/-! ## WRCR and RDCR (R207, R208) -/

theorem exec_wrcr_writes {n : BitVec 4} {r : CtrlReg} {v : Byte} {s t : State} (hr : ctrlReg n = some r)
    (hw : writeCtrl r v s = some t) : exec (.wrcr n v) s = .next t := by
  simp only [exec, execWrcr, hr, hw]

theorem exec_wrcr_fails {n : BitVec 4} {r : CtrlReg} {v : Byte} {s : State} (hr : ctrlReg n = some r)
    (hw : writeCtrl r v s = none) : exec (.wrcr n v) s = .next (raise .outOfRange s) := by
  simp only [exec, execWrcr, hr, hw]

/-- All that WRCR can do. -/
theorem exec_wrcr_cases (n : BitVec 4) (v : Byte) (s : State) :
    (∃ r t, writeCtrl r v s = some t ∧ exec (.wrcr n v) s = .next t) ∨
      exec (.wrcr n v) s = .next (raise .outOfRange s) := by
  rcases hr : ctrlReg n with _ | r
  · have := (ctrlReg_eq_none_iff n).1 hr
    exact .inr (exec_wrcr_not_writable (by omega) v s)
  · rcases hw : writeCtrl r v s with _ | t
    · exact .inr (exec_wrcr_fails hr hw)
    · exact .inl ⟨r, t, hw, exec_wrcr_writes hr hw⟩

theorem writeCtrl_mfwin_legal {s : State} {v : Byte} (hlow : 1 ≤ v.toNat) (hhigh : v.toNat ≤ s.params.mfWMax) :
    writeCtrl .mfwin v s = some { s with crMfwin := v, win := Vector.replicate 16 [] } :=
  if_pos ((legalWindow_iff s.params v).2 ⟨hlow, hhigh⟩)

theorem writeCtrl_mfwin_illegal {s : State} {v : Byte} (h : v.toNat = 0 ∨ s.params.mfWMax < v.toNat) :
    writeCtrl .mfwin v s = none :=
  if_neg (by rw [legalWindow_iff]; omega)

theorem exec_rdcr_reads {n : BitVec 4} {r : CtrlReg} (hr : ctrlReg n = some r) (s : State) :
    exec (.rdcr n) s = .next (emit (.val8 (readCtrl s r)) s) := by
  simp only [exec, execRdcr, hr]

/-- All that RDCR can do. -/
theorem exec_rdcr_cases (n : BitVec 4) (s : State) :
    (∃ r, exec (.rdcr n) s = .next (emit (.val8 (readCtrl s r)) s)) ∨
      exec (.rdcr n) s = .next (raise .outOfRange s) := by
  rcases hr : ctrlReg n with _ | r
  · exact .inr (exec_rdcr_reserved ((ctrlReg_eq_none_iff n).1 hr) s)
  · exact .inl ⟨r, exec_rdcr_reads hr s⟩

/-- R208: 0x2nii with `ii` not 0 is illegal. -/
theorem decode_rdcr_imm_ne_zero (n : BitVec 4) {imm : Byte} (h : imm ≠ 0#8) :
    decode (packWord 2 n imm) = .error (.immNotZero (packWord 2 n imm)) := by
  simpa [decode] using needZeroImm_packWord_error 2 n h (.rdcr n)

/-! ## CR.STAT (R41) -/

/-- The fields of CR.STAT by their places. -/
theorem statByte_eq_ofNat (s : State) : statByte s = BitVec.ofNat 8
    (s.mspSt.code.toNat + 8 * s.hdr.toNat + (if s.seen then 32 else 0) +
      (if s.age = 2 ^ s.params.ageW - 1 then 64 else 0)) := by
  apply BitVec.eq_of_toNat_eq
  simp only [← ageSaturated_iff, statByte, toNat_append_eq, BitVec.toNat_ofBool, Bool.toNat, Bool.cond_eq_ite,
    BitVec.toNat_ofNat]
  split_ifs <;> omega

/-- AGESAT is bit 6. -/
theorem statByte_getLsbD_ageSaturated (s : State) : (statByte s).getLsbD 6 = ageSaturated s := by
  simp only [statByte, BitVec.getLsbD_append]
  simp

/-! ## OPR is kept by the operations that do not name it (R21) -/

theorem writeCtrl_opr {r : CtrlReg} {v : Byte} {s t : State} (h : writeCtrl r v s = some t) : t.opr = s.opr := by
  obtain ⟨-, rfl⟩ | ⟨-, rfl⟩ | ⟨-, rfl⟩ | ⟨-, -, rfl⟩ | ⟨-, rfl⟩ := writeCtrl_cases h
  all_goals rfl

theorem mspSeek_opr (b : Byte) (s : State) : (mspSeek b s).opr = s.opr := by
  rcases mspSeek_cases b s with ⟨-, -, h⟩ | ⟨-, -, h⟩ | ⟨-, -, h⟩ | ⟨-, -, -, h⟩ <;> simp [h]

theorem execMspPush_opr {b : Byte} {s t : State} (h : execMspPush b s = .next t) : t.opr = s.opr := by
  unfold execMspPush at h
  split at h
  · cases h; exact mspSeek_opr b s
  · cases h; rfl
  · cases h; rfl
  · obtain ⟨-, rfl⟩ := mspReadPayload_next h; rfl
  · obtain ⟨-, _, -, rfl⟩ | ⟨-, rfl⟩ := mspReadChecksum_next h <;> rfl
  · cases h

theorem execCrsfPush_opr {b : Byte} {s t : State} (h : execCrsfPush b s = .next t) : t.opr = s.opr := by
  unfold execCrsfPush at h
  split at h
  · cases h
  · cases h
    rw [feedCrsf, processCrsf_frame]

theorem execEncClose_opr {s t : State} (h : execEncClose s = .next t) : t.opr = s.opr := by
  unfold execEncClose at h
  split at h
  · cases h; rfl
  · split at h <;> cases h; rfl

theorem execDecClose_opr {s t : State} (h : execDecClose s = .next t) : t.opr = s.opr := by
  unfold execDecClose at h
  split at h
  · split at h <;> cases h; rfl
  · cases h; rfl

/-- R21: only OPLO, OPHI and SRST write OPR. -/
theorem exec_opr {i : Instr} {s t : State} (h : exec i s = .next t) (hoplo : ∀ b, i ≠ .oplo b)
    (hophi : ∀ b, i ≠ .ophi b) (hsrst : i ≠ .srst) : t.opr = s.opr := by
  cases i with
  | srst => exact absurd rfl hsrst
  | oplo b => exact absurd rfl (hoplo b)
  | ophi b => exact absurd rfl (hophi b)
  | getch imm => rcases exec_getch_cases imm s with ⟨k, h'⟩ | h' <;> cases h'.symm.trans h <;> rfl
  | wrcr n v =>
    rcases exec_wrcr_cases n v s with ⟨r, u, hw, h'⟩ | h' <;> cases h'.symm.trans h
    · exact writeCtrl_opr hw
    · rfl
  | rdcr n => rcases exec_rdcr_cases n s with ⟨r, h'⟩ | h' <;> cases h'.symm.trans h <;> rfl
  | mspPush b => exact execMspPush_opr h
  | mspAbort =>
    cases h
    rw [mspDropFrame_opr]
    split <;> rfl
  | encByte b => rcases execEncByte_cases b s with ⟨-, h'⟩ | ⟨-, h'⟩ <;> cases h'.symm.trans h <;> rfl
  | encClose => exact execEncClose_opr h
  | crsfPush b => exact execCrsfPush_opr h
  | decByte b => rcases execDecByte_cases b s with ⟨-, h'⟩ | ⟨-, h'⟩ <;> cases h'.symm.trans h <;> rfl
  | decClose => exact execDecClose_opr h
  | nop | tick | getage | xorInit | xorUpd | xorRd | xorChk | encOpen | crcInit | crcUpd | crcRd | decOpen
  | mfUpd => cases h; rfl

/-- Settles O17: the halves as numbers, LDOP as two writes, and OPR kept by each of the other operations. -/
theorem operandRegisterHalves : Obligations.OperandRegisterHalves := by
  refine ⟨fun imm => ⟨Laws.RoundTrip.oplo imm, Laws.RoundTrip.ophi imm⟩, fun s imm => ?low, fun s imm => ?high,
    fun s v => execAll_loadOpr v s, fun _ _ _ => exec_opr⟩
  case low => rw [exec_oplo, ← withLowByte_toNat, BitVec.ofNat_toNat, BitVec.setWidth_eq]
  case high => rw [exec_ophi, ← withHighByte_toNat, BitVec.ofNat_toNat, BitVec.setWidth_eq]

/-! ## Reset (R46, R201, R240) -/

/-- With AGE_W not 0 the age 0 is not the largest, so CR.STAT reads 0x00 (R41). -/
theorem statByte_of_reset {s : State} (hblock : s.toBlock = Block.reset s.params) (hwidth : 0 < s.params.ageW) :
    statByte s = 0x00#8 := by
  have hpow : 1 < 2 ^ s.params.ageW := Nat.one_lt_two_pow hwidth.ne'
  have hage : ¬ 0 = 2 ^ s.params.ageW - 1 := by omega
  simp [statByte_eq_ofNat, hblock, hage, MspState.code]

/-- A state whose block is the reset block has the values of R46's table. -/
theorem hasResetValues_of_toBlock {s : State} (hblock : s.toBlock = Block.reset s.params)
    (hlegal : s.params.Legal) : HasResetValues s := by
  obtain ⟨-, hwidth, -⟩ := hlegal
  have hstat := statByte_of_reset hblock hwidth
  obtain ⟨block, params, port, events⟩ := s
  obtain rfl : block = Block.reset params := hblock
  constructor
  case ch => simp
  case win => simp
  case crStat => exact hstat
  all_goals rfl

/-- Settles O12: after SRST, as after hardware reset, the block is the reset block of the state's parameters. -/
theorem softResetRestoresResetValues : Obligations.SoftResetRestoresResetValues :=
  ⟨Laws.RoundTrip.srst,
    fun s hlegal => ⟨softReset s, rfl, hasResetValues_of_toBlock rfl hlegal, rfl, rfl, rfl⟩,
    fun _ hlegal => ⟨hasResetValues_of_toBlock rfl hlegal, rfl, rfl⟩,
    State.reset_eq, rfl, rfl, rfl, rfl, rfl⟩

/-! ## TICK (R203) -/

theorem exec_tick (s : State) : exec .tick s = .next { s with age := ageAfterTick s.params s.age } := rfl

theorem exec_tick_counts {s : State} (h : s.age < 2 ^ s.params.ageW - 1) :
    exec .tick s = .next { s with age := s.age + 1 } := by
  rcases ageAfterTick_cases s.params s.age with ⟨-, hage⟩ | ⟨hfull, -⟩
  · rw [exec_tick, hage]
  · omega

/-- At the largest age TICK changes nothing and AGESAT is set (R41). -/
theorem exec_tick_saturated {s : State} (h : s.age = 2 ^ s.params.ageW - 1) :
    exec .tick s = .next s ∧ (readCtrl s .stat).getLsbD 6 = true := by
  refine ⟨?_, (statByte_getLsbD_ageSaturated s).trans ((ageSaturated_iff s).2 h)⟩
  rcases ageAfterTick_cases s.params s.age with ⟨hlt, -⟩ | ⟨-, hage⟩
  · omega
  · rw [exec_tick, hage]

/-- Settles O14: TICK below and at the largest age, 0xFFFFFFFF being the largest of 32 bits, and the accepted frame. -/
theorem tickCountsAndSaturates : Obligations.TickCountsAndSaturates := by
  refine ⟨Laws.RoundTrip.tick, fun _ => exec_tick_counts, fun _ => exec_tick_saturated, fun s hwidth hage => ?_,
    acceptFrame_age⟩
  exact exec_tick_saturated (by simp [hage, hwidth])

/-! ## What GETCH reports (R106, R176, R193) -/

theorem leBytes_two (v : Val) : leBytes v 2 = [lowByte v, highByte v] := by
  have hhigh : (v >>> 8).extractLsb' 0 8 = highByte v := by
    apply BitVec.eq_of_toNat_eq
    simp [highByte]
  rw [leBytes, leBytes, leBytes, hhigh, lowByte]

theorem val16_bytes_toNat (p : Config.Params) (v : Val) :
    ((Event.val16 v).bytes p).map BitVec.toNat = [6, v.toNat % 256, v.toNat / 256] := by
  rw [← lowByte_toNat, ← highByte_toNat]
  show (0x06#8 :: leBytes v 2).map BitVec.toNat = _
  rw [leBytes_two]
  rfl

/-- The EV_CHAN of a decoded RC frame carries the channel registers. -/
theorem rcStage_events {q : List Byte} (h : q.length = 22) (s : State) :
    (rcStage q s).events = s.events ++ [.chan (rcStage q s).ch] := by
  rw [rcStage, if_pos h]
  simp

theorem exec_mfUpd_ch {n : BitVec 4} {s t : State} (h : exec (.mfUpd n) s = .next t) : t.ch = s.ch := by
  cases h
  rfl

/-- Settles O16: GETCH on and off the 16 channels, the bytes of its event, and where the registers are written. -/
theorem getchReportsChannelOrRaises : Obligations.GetchReportsChannelOrRaises :=
  ⟨Laws.RoundTrip.getch, fun s _ _ h => exec_getch_channel h s, fun s _ h => exec_getch_outOfRange h s,
    val16_bytes_toNat, fun p k => by simp, fun s _ h => rcStage_events h s, fun _ _ _ => exec_mfUpd_ch⟩

/-! ## The control registers by their numbers (R35) -/

/-- Settles O18: each number names its register, and what a write of it does is that of `writeCtrl`. -/
theorem wrcrWritesTheNamedRegister : Obligations.WrcrWritesTheNamedRegister :=
  ⟨Laws.RoundTrip.wrcr,
    fun _ _ => exec_wrcr_writes (r := .addr) rfl rfl,
    fun _ _ => exec_wrcr_writes (r := .maxlen) rfl rfl,
    fun _ _ => exec_wrcr_writes (r := .rctype) rfl rfl,
    fun _ _ hlow hhigh => exec_wrcr_writes rfl (writeCtrl_mfwin_legal hlow hhigh),
    fun _ _ h => exec_wrcr_fails rfl (writeCtrl_mfwin_illegal h),
    fun _ _ => exec_wrcr_writes (r := .err) rfl rfl,
    fun s _ v h => exec_wrcr_not_writable h v s⟩

/-- Settles O19: each number names its register, and CR.STAT is the number of its fields. -/
theorem rdcrReportsTheNamedRegister : Obligations.RdcrReportsTheNamedRegister := by
  refine ⟨Laws.RoundTrip.rdcr, fun n _ h => ⟨_, decode_rdcr_imm_ne_zero n h⟩,
    exec_rdcr_reads (r := .addr) rfl, exec_rdcr_reads (r := .maxlen) rfl, exec_rdcr_reads (r := .rctype) rfl,
    exec_rdcr_reads (r := .mfwin) rfl, exec_rdcr_reads (r := .err) rfl, fun s => ?stat, rfl,
    fun s _ h => exec_rdcr_reserved h s⟩
  case stat =>
    rw [← statByte_eq_ofNat]
    exact exec_rdcr_reads (r := .stat) rfl s

end Sys2Proof.Machine
end

section
/-! PROOF. Taking an error (spec/60_exceptions.md R220 to R227): `raise` as one update of the event port and CR.ERR, the
bytes of its event, and the invariants after it. -/

namespace Sys2Proof.Machine

/-! ## What an error writes (R221, R222) -/

theorem raise_eq (e : ErrorCode) (s : State) :
    raise e s = { s with events := s.events ++ [.err e], crErr := s.crErr ||| e.flag.mask } := rfl

theorem ErrFlag.mask_decerr : ErrFlag.decerr.mask = 0x20#8 := by decide

theorem ErrFlag.mask_illop : ErrFlag.illop.mask = 0x40#8 := by decide

/-- An error writes its event and its flag's bit, once the mask of that flag is known (R221, R222). -/
theorem raise_of_mask {e : ErrorCode} {m : Byte} (h : e.flag.mask = m) (s : State) :
    raise e s = { s with events := s.events ++ [.err e], crErr := s.crErr ||| m } := by
  rw [raise_eq, h]

/-- An EV_ERR is its tag and the code of the error (R100, R109, R221). -/
theorem err_bytes (p : Config.Params) (e : ErrorCode) : (Event.err e).bytes p = [0x0F#8, e.code] := rfl

/-! ## The invariants after an error (R47, R222) -/

/-- The channel and window ranges speak of the channel registers and the windows alone. -/
theorem RangeInv.of_eq {s t : State} (h : RangeInv s) (hch : t.ch = s.ch) (hwin : t.win = s.win) : RangeInv t := by
  obtain ⟨hchannels, hwindows⟩ := h
  exact ⟨by simpa only [hch], by simpa only [hwin]⟩

theorem RangeInv.raise {s : State} (h : RangeInv s) (e : ErrorCode) : RangeInv (raise e s) :=
  h.of_eq (raise_ch e s) (raise_win e s)

/-- An EV_ERR has its shape whatever its code, so the event list stays well formed. -/
theorem EventsInv.raise {s : State} (h : EventsInv s) (e : ErrorCode) : EventsInv (raise e s) :=
  h.append (raise_params e s) (raise_events e s) fun _ hmem => by
    rw [List.mem_singleton.1 hmem]
    trivial

/-- Of the invariant's parts only the one about events reads a field that an error writes. -/
theorem BlockInv.raise {s : State} (h : BlockInv s) (e : ErrorCode) : BlockInv (raise e s) where
  params := raise_params e s ▸ h.params
  msp := h.msp.of_eq (raise_mspSt e s) (raise_hdr e s) (raise_mspLen e s) (raise_mspCmd e s) (raise_mspCnt e s)
    (raise_mspCk e s) (raise_mspPay e s)
  store := h.store.of_eq (raise_mspPay e s) (raise_txb e s) (raise_dbuf e s)
  staging := h.staging.of_eq (raise_txb e s) (raise_txN e s) (raise_txOvf e s) (raise_dbuf e s) (raise_dn e s)
    (raise_dOvf e s)
  window := h.window.of_eq (raise_params e s) (raise_crMfwin e s) (raise_win e s)
  cbuf := h.cbuf.of_eq (raise_cbuf e s)
  age := h.age.of_eq (raise_params e s) (raise_age e s)
  events := h.events.raise e

/-- Settles O7: each error by the flag R221 gives it, the bytes by its code, and the invariants field by field. -/
theorem raiseEmitsErrorAndSetsFlag : Obligations.RaiseEmitsErrorAndSetsFlag :=
  ⟨raise_of_mask ErrFlag.mask_decerr, raise_of_mask ErrFlag.mask_decerr, raise_of_mask ErrFlag.mask_decerr,
    raise_of_mask ErrFlag.mask_illop,
    fun p => ⟨err_bytes p _, err_bytes p _, err_bytes p _, err_bytes p _⟩,
    fun e _ h => h.raise e, fun e _ h => h.raise e⟩

end Sys2Proof.Machine
end

section
/-! PROOF. The decoder, the encoder and the opcode map (spec/30_encoding.md R81 to R87): a word that decodes is the word of
the operation it decodes to, so the map can be read from the words of the operations; and the count of the legal words. -/

namespace Sys2Proof

/-! ## Decoding and encoding (R84, R85) -/

/-- Every operation decodes from its own word. -/
theorem decode_encode (i : Instr) : decode (encode i) = .ok i := by
  cases i with
  | nop => exact Laws.RoundTrip.nop
  | srst => exact Laws.RoundTrip.srst
  | tick => exact Laws.RoundTrip.tick
  | getage => exact Laws.RoundTrip.getage
  | getch imm => exact Laws.RoundTrip.getch imm
  | oplo imm => exact Laws.RoundTrip.oplo imm
  | ophi imm => exact Laws.RoundTrip.ophi imm
  | wrcr minor imm => exact Laws.RoundTrip.wrcr minor imm
  | rdcr minor => exact Laws.RoundTrip.rdcr minor
  | xorInit => exact Laws.RoundTrip.xorInit
  | xorUpd imm => exact Laws.RoundTrip.xorUpd imm
  | xorRd => exact Laws.RoundTrip.xorRd
  | xorChk imm => exact Laws.RoundTrip.xorChk imm
  | mspPush imm => exact Laws.RoundTrip.mspPush imm
  | mspAbort => exact Laws.RoundTrip.mspAbort
  | encOpen imm => exact Laws.RoundTrip.encOpen imm
  | encByte imm => exact Laws.RoundTrip.encByte imm
  | encClose => exact Laws.RoundTrip.encClose
  | crcInit => exact Laws.RoundTrip.crcInit
  | crcUpd imm => exact Laws.RoundTrip.crcUpd imm
  | crcRd => exact Laws.RoundTrip.crcRd
  | crsfPush imm => exact Laws.RoundTrip.crsfPush imm
  | decOpen => exact Laws.RoundTrip.decOpen
  | decByte imm => exact Laws.RoundTrip.decByte imm
  | decClose => exact Laws.RoundTrip.decClose
  | mfUpd minor => exact Laws.RoundTrip.mfUpd minor

/-- A word is packed from what its fields are known to be. -/
theorem packWord_of_fields {w : CmdWord} {a b : BitVec 4} {c : Byte} (ha : (majorOf w).toNat = a.toNat)
    (hb : (minorOf w).toNat = b.toNat) (hc : immOf w = c) : w = packWord a b c := by
  rw [← BitVec.eq_of_toNat_eq ha, ← BitVec.eq_of_toNat_eq hb, ← hc, packWord_fields]

/-- In a unit, an operation without `imm` operand stands for the word with `imm` 0. -/
theorem eq_packWord_of_needZeroImm {w : CmdWord} {a b : BitVec 4} {i j : Instr} (ha : (majorOf w).toNat = a.toNat)
    (hb : (minorOf w).toNat = b.toNat) (h : needZeroImm w i = .ok j) : i = j ∧ w = packWord a b 0 :=
  ⟨(needZeroImm_ok h).2, packWord_of_fields ha hb (needZeroImm_ok h).1⟩

theorem eq_encode_of_decodeSystem {w : CmdWord} {i : Instr} (ha : (majorOf w).toNat = 0)
    (h : decodeSystem w = .ok i) : w = encode i := by
  unfold decodeSystem at h
  split at h
  next hb => obtain ⟨rfl, hw⟩ := eq_packWord_of_needZeroImm (a := 0) (b := 0) ha hb h; exact hw
  next hb => obtain ⟨rfl, hw⟩ := eq_packWord_of_needZeroImm (a := 0) (b := 1) ha hb h; exact hw
  next hb => obtain ⟨rfl, hw⟩ := eq_packWord_of_needZeroImm (a := 0) (b := 2) ha hb h; exact hw
  next hb => obtain ⟨rfl, hw⟩ := eq_packWord_of_needZeroImm (a := 0) (b := 3) ha hb h; exact hw
  next hb => cases h; exact packWord_of_fields ha hb rfl
  next hb => cases h; exact packWord_of_fields ha hb rfl
  next hb => cases h; exact packWord_of_fields ha hb rfl
  next => cases h

theorem eq_encode_of_decodeXor {w : CmdWord} {i : Instr} (ha : (majorOf w).toNat = 3)
    (h : decodeXor w = .ok i) : w = encode i := by
  unfold decodeXor at h
  split at h
  next hb => obtain ⟨rfl, hw⟩ := eq_packWord_of_needZeroImm (a := 3) (b := 0) ha hb h; exact hw
  next hb => cases h; exact packWord_of_fields ha hb rfl
  next hb => obtain ⟨rfl, hw⟩ := eq_packWord_of_needZeroImm (a := 3) (b := 2) ha hb h; exact hw
  next hb => cases h; exact packWord_of_fields ha hb rfl
  next => cases h

theorem eq_encode_of_decodeMsp {w : CmdWord} {i : Instr} (ha : (majorOf w).toNat = 4)
    (h : decodeMsp w = .ok i) : w = encode i := by
  unfold decodeMsp at h
  split at h
  next hb => cases h; exact packWord_of_fields ha hb rfl
  next hb => obtain ⟨rfl, hw⟩ := eq_packWord_of_needZeroImm (a := 4) (b := 1) ha hb h; exact hw
  next hb => cases h; exact packWord_of_fields ha hb rfl
  next hb => cases h; exact packWord_of_fields ha hb rfl
  next hb => obtain ⟨rfl, hw⟩ := eq_packWord_of_needZeroImm (a := 4) (b := 4) ha hb h; exact hw
  next => cases h

theorem eq_encode_of_decodeCrc {w : CmdWord} {i : Instr} (ha : (majorOf w).toNat = 5)
    (h : decodeCrc w = .ok i) : w = encode i := by
  unfold decodeCrc at h
  split at h
  next hb => obtain ⟨rfl, hw⟩ := eq_packWord_of_needZeroImm (a := 5) (b := 0) ha hb h; exact hw
  next hb => cases h; exact packWord_of_fields ha hb rfl
  next hb => obtain ⟨rfl, hw⟩ := eq_packWord_of_needZeroImm (a := 5) (b := 2) ha hb h; exact hw
  next => cases h

theorem eq_encode_of_decodeCrsf {w : CmdWord} {i : Instr} (ha : (majorOf w).toNat = 6)
    (h : decodeCrsf w = .ok i) : w = encode i := by
  unfold decodeCrsf at h
  split at h
  next hb => cases h; exact packWord_of_fields ha hb rfl
  next => cases h

theorem eq_encode_of_decodeDec {w : CmdWord} {i : Instr} (ha : (majorOf w).toNat = 7)
    (h : decodeDec w = .ok i) : w = encode i := by
  unfold decodeDec at h
  split at h
  next hb => obtain ⟨rfl, hw⟩ := eq_packWord_of_needZeroImm (a := 7) (b := 0) ha hb h; exact hw
  next hb => cases h; exact packWord_of_fields ha hb rfl
  next hb => obtain ⟨rfl, hw⟩ := eq_packWord_of_needZeroImm (a := 7) (b := 2) ha hb h; exact hw
  next => cases h

/-- A word that decodes is the word of the operation it decodes to, unit by unit. -/
theorem eq_encode_of_decode {w : CmdWord} {i : Instr} (h : decode w = .ok i) : w = encode i := by
  unfold decode at h
  split at h
  next ha => exact eq_encode_of_decodeSystem ha h
  next ha => cases h; exact packWord_of_fields ha rfl rfl
  next ha => obtain ⟨rfl, hw⟩ := eq_packWord_of_needZeroImm (a := 2) ha rfl h; exact hw
  next ha => exact eq_encode_of_decodeXor ha h
  next ha => exact eq_encode_of_decodeMsp ha h
  next ha => exact eq_encode_of_decodeCrc ha h
  next ha => exact eq_encode_of_decodeCrsf ha h
  next ha => exact eq_encode_of_decodeDec ha h
  next ha => obtain ⟨rfl, hw⟩ := eq_packWord_of_needZeroImm (a := 8) ha rfl h; exact hw
  next => cases h

/-- Settles O1: the round trip of each operation one way, the fields of the word the other. -/
theorem decodeInvertsEncode : Obligations.DecodeInvertsEncode := fun _ i =>
  ⟨eq_encode_of_decode, fun h => h ▸ decode_encode i⟩

theorem decode_of_eq_encode {w : CmdWord} {i : Instr} (h : w = encode i) : decode w = .ok i :=
  (decodeInvertsEncode w i).2 h

/-- Settles O5: each word is the word of its operation. -/
theorem writtenOutWordsDecode : Obligations.WrittenOutWordsDecode :=
  ⟨decode_of_eq_encode rfl, decode_of_eq_encode rfl, decode_of_eq_encode rfl, decode_of_eq_encode rfl,
    decode_of_eq_encode rfl, decode_of_eq_encode rfl, decode_of_eq_encode rfl, decode_of_eq_encode rfl,
    decode_of_eq_encode rfl, decode_of_eq_encode rfl⟩

/-! ## The opcode map (R84) -/

/-- A word of two rows would make their patterns agree where both masks look. -/
theorem OpcodeRow.pattern_and_mask_eq {r r' : OpcodeRow} {w : CmdWord} (h : r.admits w = true)
    (h' : r'.admits w = true) : r.pattern &&& r'.mask = r'.pattern &&& r.mask := by
  rw [← eq_of_beq h, ← eq_of_beq h', BitVec.and_assoc, BitVec.and_assoc, BitVec.and_comm r.mask]

/-- No two rows agree where both masks look. -/
theorem opcodeMap_patterns_differ :
    ∀ r ∈ opcodeMap, ∀ r' ∈ opcodeMap, r.pattern &&& r'.mask = r'.pattern &&& r.mask → r = r' := by
  decide

theorem opcodeMap_disjoint {w : CmdWord} {r r' : OpcodeRow} (hr : r ∈ opcodeMap) (hr' : r' ∈ opcodeMap)
    (h : r.admits w = true) (h' : r'.admits w = true) : r = r' :=
  opcodeMap_patterns_differ r hr r' hr' (OpcodeRow.pattern_and_mask_eq h h')

/-- The row with an operation's mnemonic admits its word: the mask keeps the fields that are fixed and clears the
operands. -/
theorem exists_row_of_encode (i : Instr) :
    ∃ r ∈ opcodeMap, r.mnemonic = i.mnemonic ∧ r.admits (encode i) = true := by
  have hnibble (n : BitVec 4) : n &&& 15#4 = n := BitVec.and_allOnes
  cases i <;>
    simp [opcodeMap, Instr.mnemonic] <;>
    simp [OpcodeRow.admits_iff_fields, encode, majorOf_ofNat, minorOf_ofNat, immOf_ofNat, hnibble]

/-- A word that decodes stands in the row of its operation. -/
theorem exists_row_of_decode {w : CmdWord} {i : Instr} (h : decode w = .ok i) :
    ∃ r ∈ opcodeMap, r.admits w = true ∧ r.mnemonic = i.mnemonic := by
  rw [eq_encode_of_decode h]
  obtain ⟨r, hr, hname, hadmits⟩ := exists_row_of_encode i
  exact ⟨r, hr, hadmits, hname⟩

/-- Settles O2: rows are told apart by their patterns; a word of a row is legal, and its operation's row is that row. -/
theorem decoderFollowsOpcodeMap : Obligations.DecoderFollowsOpcodeMap := by
  refine ⟨rfl, fun _ _ _ => opcodeMap_disjoint, fun _ _ => exists_row_of_decode, fun w r hr hadmits => ?_⟩
  obtain ⟨i, hi⟩ := (exists_decode_ok_iff_fieldsAccepted w).2
    ((exists_row_admits_iff_fieldsAccepted w).1 ⟨r, hr, hadmits⟩)
  obtain ⟨r', hr', hadmits', hname⟩ := exists_row_of_decode hi
  exact ⟨i, hi, by rw [opcodeMap_disjoint hr hr' hadmits hadmits', hname]⟩

/-! ## The legal words counted (R87) -/

/-- A number below `m * k` is counted by its quotient and its remainder. -/
theorem countP_range_mul (p : Nat → Bool) (m k : Nat) :
    (List.range (m * k)).countP p = ((List.range m).map fun a => (List.range k).countP fun c => p (k * a + c)).sum := by
  induction m with
  | zero => simp
  | succ m ih =>
    rw [Nat.succ_mul, List.range_add, List.countP_append, ih, List.countP_map, List.range_succ, List.map_append,
      List.sum_append]
    simp [Function.comp_def, Nat.mul_comm]

/-- The list of R85 reads a word's major, its minor and whether its immediate is 0. -/
theorem legalWord_congr {v w : CmdWord} (hunit : v.toNat / 256 = w.toNat / 256)
    (himm : v.toNat % 256 = 0 ↔ w.toNat % 256 = 0) : legalWord v = legalWord w := by
  have hmajor : v.toNat / 4096 = w.toNat / 4096 := by omega
  have hzero : (v.toNat % 256 == 0) = (w.toNat % 256 == 0) := by rw [Bool.eq_iff_iff, beq_iff_eq, beq_iff_eq, himm]
  simp only [legalWord, hunit, hmajor, hzero]

/-- How many of the 256 words with one major and one minor are legal, `n` the first of them: the one with immediate 0
stands alone, the other 255 are legal together. -/
def legalImmCount (n : Nat) : Nat :=
  (legalWord (BitVec.ofNat 16 n)).toNat + 255 * (legalWord (BitVec.ofNat 16 (n + 1))).toNat

theorem countP_legalWord_imm {n : Nat} (h : n % 256 = 0) :
    ((List.range 256).countP fun c => legalWord (BitVec.ofNat 16 (n + c))) = legalImmCount n := by
  have hnonzero : ∀ c < 255, legalWord (BitVec.ofNat 16 (n + (c + 1))) = legalWord (BitVec.ofNat 16 (n + 1)) :=
    fun c hc => legalWord_congr (by simp only [BitVec.toNat_ofNat]; omega) (by simp only [BitVec.toNat_ofNat]; omega)
  have hcount : (List.range 255).countP (fun c => legalWord (BitVec.ofNat 16 (n + (c + 1)))) =
      255 * (legalWord (BitVec.ofNat 16 (n + 1))).toNat := by
    rw [List.countP_congr (q := fun _ => legalWord (BitVec.ofNat 16 (n + 1)))
      fun c hc => by rw [hnonzero c (List.mem_range.1 hc)]]
    cases legalWord (BitVec.ofNat 16 (n + 1)) <;> simp
  rw [List.range_succ_eq_map, List.countP_cons, List.countP_map, legalImmCount, Function.comp_def, hcount]
  cases legalWord (BitVec.ofNat 16 n) <;> simp [Nat.add_comm]

/-- Unit by unit: 772 + 4096 + 16 + 514 + 770 + 258 + 256 + 258 + 16. -/
theorem sum_legalImmCount :
    ((List.range 16).map fun major =>
      ((List.range 16).map fun minor => legalImmCount (4096 * major + 256 * minor)).sum).sum = 6956 := by
  decide

theorem countP_legalWord : ((List.range 65536).countP fun n => legalWord (BitVec.ofNat 16 n)) = 6956 := by
  rw [← sum_legalImmCount, countP_range_mul _ 16 4096]
  refine congrArg List.sum (List.map_congr_left fun major _ => ?_)
  rw [countP_range_mul _ 16 256]
  refine congrArg List.sum (List.map_congr_left fun minor _ => ?_)
  simp only [← Nat.add_assoc]
  exact countP_legalWord_imm (by omega)

theorem isSome_decodeTableWord (n : Nat) : (decodeTableWord 16 n).isSome = legalWord (BitVec.ofNat 16 n) := by
  have hmod : BitVec.ofNat 16 (n % 2 ^ 16) = BitVec.ofNat 16 n := BitVec.eq_of_toNat_eq (by simp)
  rw [Bool.eq_iff_iff, legalWord_iff_fieldsAccepted, ← exists_decode_ok_iff_fieldsAccepted, decodeTableWord, hmod]
  cases decode (BitVec.ofNat 16 n) <;> simp

/-- Settles O4: the table's words are legal where R85 says, and those are counted by major, minor and immediate. -/
theorem legalWordCountIs6956 : Obligations.LegalWordCountIs6956 := by
  simpa only [Obligations.LegalWordCountIs6956, isSome_decodeTableWord] using countP_legalWord

end Sys2Proof

namespace Sys2Proof.Machine

/-! ## A step (R80) -/

theorem step_of_decode_ok {s : State} {w : CmdWord} {rest : List CmdWord} {i : Instr} (hport : s.port = w :: rest)
    (h : decode w = .ok i) : step s = exec i { s with port := rest } := by
  simp only [step, fetch, hport, h]

theorem step_of_decode_error {s : State} {w : CmdWord} {rest : List CmdWord} {e : IllegalWord}
    (hport : s.port = w :: rest) (h : decode w = .error e) : step s = takeIllegal { s with port := rest } := by
  simp only [step, fetch, hport, h]

theorem step_of_port_nil {s : State} (hport : s.port = []) : step s = .next s := by
  simp only [step, fetch, hport, idle]

theorem decodeTableWord_eq_some {nbits n : Nat} {i : Instr} (h : decodeTableWord nbits n = some i) :
    decode (BitVec.ofNat 16 (n % 2 ^ nbits)) = .ok i := by
  unfold decodeTableWord at h
  split at h
  next heq => cases h; exact heq
  next => cases h

/-- Settles O6: the three things a step can meet; a word placed by the host is the next one. -/
theorem stepRunsTheDecodedInstruction : Obligations.StepRunsTheDecodedInstruction :=
  ⟨fun _ _ _ _ => step_of_decode_ok, fun _ _ _ _ => step_of_decode_error,
    fun s _ _ h => step_of_decode_ok (s := s.withFetchWord 16 _) rfl (decodeTableWord_eq_some h),
    fun _ => step_of_port_nil⟩

/-- R85: 0x00ii with `ii` not 0 is illegal. -/
theorem decode_nop_imm_ne_zero {imm : Byte} (h : imm ≠ 0#8) :
    decode (packWord 0 0 imm) = .error (.immNotZero (packWord 0 0 imm)) := by
  simpa [decode, decodeSystem] using needZeroImm_packWord_error 0 0 h .nop

/-- Settles O13: the one word of NOP, and its effect. -/
theorem nopHasNoEffect : Obligations.NopHasNoEffect :=
  ⟨Laws.RoundTrip.nop, fun _ h => ⟨_, decode_nop_imm_ne_zero h⟩, fun _ => rfl⟩

end Sys2Proof.Machine
end

section
/-! PROOF. What each operation can do: one lemma for each operation that branches, the six stops among them, and the
fields each operation may write. -/

namespace Sys2Proof.Machine

/-! ## The operations that branch -/

/-- All that a byte can do in ReadPayload (R126). -/
theorem mspReadPayload_cases (b : Byte) (s : State) :
    (s.mspCnt.toNat < 255 ∧ mspReadPayload b s = .next { s with
        mspPay := memWrite s.mspPay s.mspCnt.toNat b
        mspCk := s.mspCk ^^^ b
        mspCnt := s.mspCnt + 1
        mspSt := if s.mspCnt + 1 = s.mspLen then .readChecksum else .readPayload }) ∨
      (s.mspCnt = 255#8 ∧ mspReadPayload b s = .fault (.outsideStore .mspPay 255)) := by
  unfold mspReadPayload
  by_cases h : s.mspCnt.toNat < 255
  · exact .inl ⟨h, by rw [checkRoom_ok (sp := .mspPay) h]⟩
  · have hfull : s.mspCnt = 255#8 := by bv_omega
    exact .inr ⟨hfull, by rw [hfull]; rfl⟩

/-- All that a byte can do in ReadChecksum (R127, R128). -/
theorem mspReadChecksum_cases (b : Byte) (s : State) :
    (b = s.mspCk ∧ ∃ p, memPrefix s.mspPay s.mspLen.toNat = some p ∧ mspReadChecksum b s = .next { s with
        mspSt := .seekHeader
        hdr := 0#2
        events := s.events ++ [.msp Config.mspResponse s.mspLen s.mspCmd p] }) ∨
      (b = s.mspCk ∧ memPrefix s.mspPay s.mspLen.toNat = none ∧
        mspReadChecksum b s = .fault (.unwrittenByte .mspPay s.mspLen.toNat)) ∨
      (b ≠ s.mspCk ∧
        mspReadChecksum b s = .next (setFlag .mspCkerr { s with mspSt := .seekHeader, hdr := 0#2 })) := by
  unfold mspReadChecksum mspDone
  by_cases hb : b = s.mspCk
  · rcases loadBytes_cases .mspPay s.mspPay s.mspLen.toNat with ⟨p, hp, hl⟩ | ⟨hp, hl⟩
    · exact .inl ⟨hb, p, hp, by simp only [if_pos hb, hl]; rfl⟩
    · exact .inr (.inl ⟨hb, hp, by simp only [if_pos hb, hl]⟩)
  · exact .inr (.inr ⟨hb, if_neg hb⟩)

/-- All that ENC_CLOSE can do (R133). -/
theorem execEncClose_cases (s : State) :
    (s.txOvf = true ∧ execEncClose s = .next (encRelease (raise .payloadTooLarge s))) ∨
      (s.txOvf = false ∧ ∃ p, memPrefix s.txb s.txN.toNat = some p ∧
        execEncClose s = .next (encRelease (emit (.tx (mspEncode s.txCmd p)) s))) ∨
      (s.txOvf = false ∧ memPrefix s.txb s.txN.toNat = none ∧
        execEncClose s = .fault (.unwrittenByte .txb s.txN.toNat)) := by
  unfold execEncClose
  cases hovf : s.txOvf with
  | true => exact .inl ⟨rfl, rfl⟩
  | false =>
    rcases loadBytes_cases .txb s.txb s.txN.toNat with ⟨p, hp, hl⟩ | ⟨hp, hl⟩
    · exact .inr (.inl ⟨rfl, p, hp, by simp [hl]⟩)
    · exact .inr (.inr ⟨rfl, hp, by simp [hl]⟩)

/-- All that DEC_CLOSE can do (R179). -/
theorem execDecClose_cases (s : State) :
    (s.dn = 22#5 ∧ s.dOvf = false ∧ ∃ p, memPrefix s.dbuf 22 = some p ∧
        execDecClose s = .next (decRelease (emit (.dec (decodeChannels p)) s))) ∨
      (s.dn = 22#5 ∧ s.dOvf = false ∧ memPrefix s.dbuf 22 = none ∧
        execDecClose s = .fault (.unwrittenByte .dbuf 22)) ∨
      (¬(s.dn = 22#5 ∧ s.dOvf = false) ∧
        execDecClose s = .next (decRelease (raise .invalidPayloadLength s))) := by
  unfold execDecClose
  by_cases h : s.dn = 22#5 ∧ s.dOvf = false
  · rcases loadBytes_cases .dbuf s.dbuf Config.rcPayload with ⟨p, hp, hl⟩ | ⟨hp, hl⟩
    · exact .inl ⟨h.1, h.2, p, hp, by simp only [if_pos h, hl]⟩
    · exact .inr (.inl ⟨h.1, h.2, hp, by simp only [if_pos h, hl]⟩)
  · exact .inr (.inr ⟨h, if_neg h⟩)

/-- All that CRSF_PUSH can do (R151, R161). -/
theorem execCrsfPush_cases (b : Byte) (s : State) :
    (s.cbuf.length ≤ 256 ∧ execCrsfPush b s = .next (feedCrsf crcRom [b] s)) ∨
      (257 ≤ s.cbuf.length ∧ execCrsfPush b s = .fault (.outsideStore .cbuf s.cbuf.length)) := by
  unfold execCrsfPush
  by_cases h : s.cbuf.length < 257
  · exact .inl ⟨by omega, by rw [checkRoom_ok (sp := .cbuf) h]⟩
  · exact .inr ⟨by omega, by rw [checkRoom_error (sp := .cbuf) (not_lt.1 h)]⟩

/-! ## Where an operation stops (logs 3, 4, 9) -/

theorem execMspPush_eq_fault_iff (b : Byte) (s : State) (f : Fault) :
    execMspPush b s = .fault f ↔
      (s.mspSt = .done ∧ f = .mspDoneStored) ∨
      (s.mspSt = .readPayload ∧ s.mspCnt = 255#8 ∧ f = .outsideStore .mspPay 255) ∨
      (b = s.mspCk ∧ s.mspSt = .readChecksum ∧ memPrefix s.mspPay s.mspLen.toNat = none ∧
        f = .unwrittenByte .mspPay s.mspLen.toNat) := by
  unfold execMspPush
  cases hst : s.mspSt with
  | seekHeader | readLength | readCommand => simp
  | readPayload =>
    rcases mspReadPayload_cases b s with ⟨hcnt, h⟩ | ⟨hcnt, h⟩
    · have hne : s.mspCnt ≠ 255#8 := by bv_omega
      simp [h, hne]
    · simp [h, hcnt, eq_comm]
  | readChecksum =>
    rcases mspReadChecksum_cases b s with ⟨hb, p, hp, h⟩ | ⟨hb, hp, h⟩ | ⟨hb, h⟩
    · simp [h, hp]
    · simp [h, ← hb, hp, eq_comm]
    · simp [h, hb]
  | done => simp [eq_comm]

theorem execEncClose_eq_fault_iff (s : State) (f : Fault) :
    execEncClose s = .fault f ↔
      s.txOvf = false ∧ memPrefix s.txb s.txN.toNat = none ∧ f = .unwrittenByte .txb s.txN.toNat := by
  rcases execEncClose_cases s with ⟨hovf, h⟩ | ⟨hovf, p, hp, h⟩ | ⟨hovf, hp, h⟩
  · simp [h, hovf]
  · simp [h, hp]
  · simp [h, hovf, hp, eq_comm]

theorem execDecClose_eq_fault_iff (s : State) (f : Fault) :
    execDecClose s = .fault f ↔
      s.dn = 22#5 ∧ s.dOvf = false ∧ memPrefix s.dbuf 22 = none ∧ f = .unwrittenByte .dbuf 22 := by
  rcases execDecClose_cases s with ⟨hn, hovf, p, hp, h⟩ | ⟨hn, hovf, hp, h⟩ | ⟨hnot, h⟩
  · simp [h, hp]
  · simp [h, hn, hovf, hp, eq_comm]
  · rw [h]
    exact ⟨nofun, fun ⟨hn, hovf, _⟩ => absurd ⟨hn, hovf⟩ hnot⟩

theorem execCrsfPush_eq_fault_iff (b : Byte) (s : State) (f : Fault) :
    execCrsfPush b s = .fault f ↔ 257 ≤ s.cbuf.length ∧ f = .outsideStore .cbuf s.cbuf.length := by
  rcases execCrsfPush_cases b s with ⟨hlen, h⟩ | ⟨hlen, h⟩
  · simp [h]; omega
  · simp [h, hlen, eq_comm]

/-- The operations whose stops are named above. -/
def canStop : Instr → Bool
  | .mspPush _ | .encClose | .decClose | .crsfPush _ => true
  | _ => false

/-- Every other operation goes on. -/
theorem exec_goes_on {i : Instr} (hi : canStop i = false) (s : State) : ∃ t, exec i s = .next t := by
  cases i with
  | mspPush | encClose | decClose | crsfPush => cases hi
  | getch imm => rcases exec_getch_cases imm s with ⟨_, h⟩ | h <;> exact ⟨_, h⟩
  | wrcr n v => rcases exec_wrcr_cases n v s with ⟨_, _, _, h⟩ | h <;> exact ⟨_, h⟩
  | rdcr n => rcases exec_rdcr_cases n s with ⟨_, h⟩ | h <;> exact ⟨_, h⟩
  | encByte b => rcases execEncByte_cases b s with ⟨_, h⟩ | ⟨_, h⟩ <;> exact ⟨_, h⟩
  | decByte b => rcases execDecByte_cases b s with ⟨_, h⟩ | ⟨_, h⟩ <;> exact ⟨_, h⟩
  | nop | srst | tick | getage | oplo | ophi | xorInit | xorUpd | xorRd | xorChk | mspAbort | encOpen | crcInit | crcUpd
  | crcRd | decOpen | mfUpd => exact ⟨_, rfl⟩

theorem exec_ne_fault {i : Instr} (hi : canStop i = false) (s : State) (f : Fault) : exec i s ≠ .fault f := by
  obtain ⟨t, h⟩ := exec_goes_on hi s
  simp [h]

theorem execMspPush_ne_refused (b : Byte) (s : State) (r : Refusal) : execMspPush b s ≠ .refused r := by
  unfold execMspPush
  split
  · nofun
  · nofun
  · nofun
  · rcases mspReadPayload_cases b s with ⟨-, h⟩ | ⟨-, h⟩ <;> simp [h]
  · rcases mspReadChecksum_cases b s with ⟨-, _, -, h⟩ | ⟨-, -, h⟩ | ⟨-, h⟩ <;> simp [h]
  · nofun

/-- Nothing is refused. -/
theorem exec_ne_refused (i : Instr) (s : State) (r : Refusal) : exec i s ≠ .refused r := by
  by_cases hi : canStop i = false
  · obtain ⟨t, h⟩ := exec_goes_on hi s
    simp [h]
  cases i with
  | mspPush b => exact execMspPush_ne_refused b s r
  | encClose =>
    show execEncClose s ≠ _
    rcases execEncClose_cases s with ⟨-, h⟩ | ⟨-, _, -, h⟩ | ⟨-, -, h⟩ <;> simp [h]
  | decClose =>
    show execDecClose s ≠ _
    rcases execDecClose_cases s with ⟨-, -, _, -, h⟩ | ⟨-, -, -, h⟩ | ⟨-, h⟩ <;> simp [h]
  | crsfPush b =>
    show execCrsfPush b s ≠ _
    rcases execCrsfPush_cases b s with ⟨-, h⟩ | ⟨-, h⟩ <;> simp [h]
  | _ => exact absurd rfl hi

/-- Settles O55: the four operations that can stop, each with its stops, and the others that go on. -/
theorem stopsAreExactlyThoseNamed : Obligations.StopsAreExactlyThoseNamed := by
  refine ⟨fun i s f => ?_, exec_ne_refused⟩
  cases i with
  | mspPush b => simpa [exec] using execMspPush_eq_fault_iff b s f
  | encClose => simpa [exec] using execEncClose_eq_fault_iff s f
  | decClose => simpa [exec] using execDecClose_eq_fault_iff s f
  | crsfPush b => simpa [exec] using execCrsfPush_eq_fault_iff b s f
  | _ => exact iff_of_false (exec_ne_fault (by rfl) s f) (by simp)

/-! ## What an operation can write -/

/-- `s` with the fields that an operation may write taken from `t` (the rules of R112 to R208 that say what each writes). -/
def written : Instr → State → State → State
  | .nop, s, _ => s
  | .srst, s, t => { s with toBlock := t.toBlock }
  | .tick, s, t => { s with age := t.age }
  | .getage, s, t | .xorRd, s, t | .xorChk _, s, t | .crcRd, s, t => { s with events := t.events }
  | .getch _, s, t | .rdcr _, s, t => { s with crErr := t.crErr, events := t.events }
  | .oplo _, s, t | .ophi _, s, t => { s with opr := t.opr }
  | .wrcr _ _, s, t =>
    { s with
      crAddr := t.crAddr, crMaxlen := t.crMaxlen, crRctype := t.crRctype, crMfwin := t.crMfwin, win := t.win
      crErr := t.crErr, events := t.events }
  | .xorInit, s, t | .xorUpd _, s, t => { s with xora := t.xora }
  | .mspPush _, s, t =>
    { s with
      mspSt := t.mspSt, hdr := t.hdr, mspLen := t.mspLen, mspCmd := t.mspCmd, mspCnt := t.mspCnt
      mspCk := t.mspCk, mspPay := t.mspPay, crErr := t.crErr, events := t.events }
  | .mspAbort, s, t =>
    { s with
      mspSt := t.mspSt, hdr := t.hdr, mspLen := t.mspLen, mspCmd := t.mspCmd, mspCnt := t.mspCnt
      mspCk := t.mspCk, crErr := t.crErr }
  | .encOpen _, s, t => { s with txCmd := t.txCmd, txN := t.txN, txOvf := t.txOvf }
  | .encByte _, s, t => { s with txb := t.txb, txN := t.txN, txOvf := t.txOvf }
  | .encClose, s, t => { s with txN := t.txN, txOvf := t.txOvf, crErr := t.crErr, events := t.events }
  | .crcInit, s, t | .crcUpd _, s, t => { s with crca := t.crca }
  | .crsfPush _, s, t =>
    { s with
      cbuf := t.cbuf, age := t.age, seen := t.seen, ch := t.ch, win := t.win, crErr := t.crErr, events := t.events }
  | .decOpen, s, t => { s with dn := t.dn, dOvf := t.dOvf }
  | .decByte _, s, t => { s with dbuf := t.dbuf, dn := t.dn, dOvf := t.dOvf }
  | .decClose, s, t => { s with dn := t.dn, dOvf := t.dOvf, crErr := t.crErr, events := t.events }
  | .mfUpd _, s, t => { s with win := t.win, events := t.events }

/-- All that an MSP_PUSH that goes on can do (R122 to R128). -/
theorem execMspPush_next {b : Byte} {s t : State} (h : execMspPush b s = .next t) :
    (s.mspSt = .seekHeader ∧ t = mspSeek b s) ∨
      (s.mspSt = .readLength ∧ t = mspReadLength b s) ∨
      (s.mspSt = .readCommand ∧ t = mspReadCommand b s) ∨
      (s.mspSt = .readPayload ∧ mspReadPayload b s = .next t) ∨
      (s.mspSt = .readChecksum ∧ mspReadChecksum b s = .next t) := by
  unfold execMspPush at h
  cases hst : s.mspSt <;> simp_all

theorem execMspPush_writes {b : Byte} {s t : State} (h : execMspPush b s = .next t) :
    t = written (.mspPush b) s t := by
  obtain ⟨-, rfl⟩ | ⟨-, rfl⟩ | ⟨-, rfl⟩ | ⟨-, hp⟩ | ⟨-, hc⟩ := execMspPush_next h
  · rcases mspSeek_cases b s with ⟨-, -, hs⟩ | ⟨-, -, hs⟩ | ⟨-, -, hs⟩ | ⟨-, -, -, hs⟩ <;> rw [hs] <;> rfl
  · rfl
  · rfl
  · obtain ⟨-, rfl⟩ := mspReadPayload_next hp; rfl
  · obtain ⟨-, _, -, rfl⟩ | ⟨-, rfl⟩ := mspReadChecksum_next hc <;> rfl

theorem execWrcr_writes {n : BitVec 4} {v : Byte} {s t : State} (h : execWrcr n v s = .next t) :
    t = written (.wrcr n v) s t := by
  rcases exec_wrcr_cases n v s with ⟨r, u, hw, h'⟩ | h' <;> cases h'.symm.trans h
  · obtain ⟨-, rfl⟩ | ⟨-, rfl⟩ | ⟨-, rfl⟩ | ⟨-, -, rfl⟩ | ⟨-, rfl⟩ := writeCtrl_cases hw <;> rfl
  · rfl

theorem execEncClose_writes {s t : State} (h : execEncClose s = .next t) : t = written .encClose s t := by
  rcases execEncClose_cases s with ⟨-, h'⟩ | ⟨-, _, -, h'⟩ | ⟨-, -, h'⟩ <;> cases h'.symm.trans h <;> rfl

theorem execDecClose_writes {s t : State} (h : execDecClose s = .next t) : t = written .decClose s t := by
  rcases execDecClose_cases s with ⟨-, -, _, -, h'⟩ | ⟨-, -, -, h'⟩ | ⟨-, h'⟩ <;> cases h'.symm.trans h <;> rfl

theorem execCrsfPush_writes {b : Byte} {s t : State} (h : execCrsfPush b s = .next t) :
    t = written (.crsfPush b) s t := by
  rcases execCrsfPush_cases b s with ⟨-, h'⟩ | ⟨-, h'⟩ <;> cases h'.symm.trans h
  exact processCrsf_frame crcRom { s with cbuf := s.cbuf ++ [b] }

/-- An operation that goes on writes nothing but the fields named for it. -/
theorem exec_writes {i : Instr} {s t : State} (h : exec i s = .next t) : t = written i s t := by
  cases i with
  | getch imm => rcases exec_getch_cases imm s with ⟨_, h'⟩ | h' <;> cases h'.symm.trans h <;> rfl
  | wrcr n v => exact execWrcr_writes h
  | rdcr n => rcases exec_rdcr_cases n s with ⟨_, h'⟩ | h' <;> cases h'.symm.trans h <;> rfl
  | mspPush b => exact execMspPush_writes h
  | mspAbort => cases h; by_cases hst : s.mspSt = .seekHeader <;> simp only [hst, if_true, if_false] <;> rfl
  | encByte b => rcases execEncByte_cases b s with ⟨-, h'⟩ | ⟨-, h'⟩ <;> cases h'.symm.trans h <;> rfl
  | encClose => exact execEncClose_writes h
  | crsfPush b => exact execCrsfPush_writes h
  | decByte b => rcases execDecByte_cases b s with ⟨-, h'⟩ | ⟨-, h'⟩ <;> cases h'.symm.trans h <;> rfl
  | decClose => exact execDecClose_writes h
  | nop | srst | tick | getage | oplo | ophi | xorInit | xorUpd | xorRd | xorChk | encOpen | crcInit | crcUpd | crcRd
  | decOpen | mfUpd => cases h; rfl

/-- MF_UPD writes the window of its channel only (R193). -/
theorem exec_mfUpd_win_other {n : BitVec 4} {s t : State} (h : exec (.mfUpd n) s = .next t) {k : Fin 16}
    (hk : k ≠ n.toFin) : t.win[k] = s.win[k] := by
  cases h
  exact Vector.getElem_set_ne (channelOfMinor n).isLt k.isLt fun heq => hk (Fin.ext heq.symm)

/-- Settles O49: what each of the three operations may write, and the windows that MF_UPD leaves. -/
theorem receiversDoNotTouchEachOther : Obligations.ReceiversDoNotTouchEachOther :=
  ⟨fun _ _ _ => exec_writes, fun _ _ _ => exec_writes, fun _ _ _ h => ⟨exec_writes h, fun _ => exec_mfUpd_win_other h⟩⟩

end Sys2Proof.Machine
end

section
/-! PROOF. Operations that do not see a change of the state: what was emitted before, which words wait, what the
stand-alone units hold. Each is a map of the state that the operation carries from its start to its end; the CRSF search
carries a map as soon as every round does. -/

namespace Sys2Proof.Machine

/-! ## Maps of the state -/

/-- The outcome with a map applied to the state reached, if one is reached. -/
def mapNext (φ : State → State) : Host.Outcome State Fault Refusal → Host.Outcome State Fault Refusal
  | .next s => .next (φ s)
  | .fault f => .fault f
  | .refused r => .refused r

@[simp] theorem mapNext_next (φ : State → State) (s : State) : mapNext φ (.next s) = .next (φ s) := rfl

@[simp] theorem mapNext_fault (φ : State → State) (f : Fault) : mapNext φ (.fault f) = .fault f := rfl

@[simp] theorem mapNext_refused (φ : State → State) (r : Refusal) : mapNext φ (.refused r) = .refused r := rfl

theorem mapNext_eq_next {φ : State → State} {o : Host.Outcome State Fault Refusal} {t : State}
    (h : mapNext φ o = .next t) : ∃ u, o = .next u ∧ t = φ u := by
  cases o <;> simp_all [eq_comm]

theorem mapNext_eq_fault {φ : State → State} {o : Host.Outcome State Fault Refusal} {f : Fault}
    (h : mapNext φ o = .fault f) : o = .fault f := by
  cases o <;> simp_all

/-! ## The search carries what its rounds carry -/

/-- If every round that goes on still goes on, to the image of its result, then the search of the image goes through the
image of the search's result. -/
theorem processCrsf_through {rom : Byte → Byte} {φ : State → State}
    (hround : ∀ s t, searchRound rom s = some t → searchRound rom (φ s) = some (φ t)) (s : State) :
    processCrsf rom (φ s) = processCrsf rom (φ (processCrsf rom s)) :=
  processCrsf_induct (P := fun t => processCrsf rom (φ s) = processCrsf rom (φ t))
    (fun u v huv hu => hu.trans (processCrsf_of_some (hround u v huv))) s rfl

/-- If moreover a round that returns still returns, the search of the image is the image of the search. -/
theorem processCrsf_map {rom : Byte → Byte} {φ : State → State}
    (hround : ∀ s, searchRound rom (φ s) = (searchRound rom s).map φ) (s : State) :
    processCrsf rom (φ s) = φ (processCrsf rom s) := by
  have hend : searchRound rom (φ (processCrsf rom s)) = none := by
    rw [hround, processCrsf, searchLoop_settled rom _ s le_rfl, Option.map_none]
  rw [processCrsf_through (fun s t h => by rw [hround, h, Option.map_some]) s, processCrsf_of_none hend]

/-- What accepting a frame does before its type is looked at (R157). -/
def takeFrame (l : Nat) (s : State) : State :=
  { emit (.frame (slice s.cbuf 0 (l + 1))) { s with cbuf := s.cbuf.drop (l + 2) } with age := 0, seen := true }

theorem acceptFrame_eq (l : Nat) (s : State) :
    acceptFrame l s = dispatchFrame (slice s.cbuf 0 (l + 1)) l (takeFrame l s) := rfl

/-- A map that the search does not look at: it leaves CBUF and the registers that the search reads, and may be made before
or after a byte is dropped, a frame taken and the RC stage run. -/
structure UnseenBySearch (φ : State → State) : Prop where
  cbuf : ∀ s, (φ s).cbuf = s.cbuf
  crAddr : ∀ s, (φ s).crAddr = s.crAddr
  crMaxlen : ∀ s, (φ s).crMaxlen = s.crMaxlen
  crRctype : ∀ s, (φ s).crRctype = s.crRctype
  dropOne : ∀ f s, dropOne f (φ s) = φ (dropOne f s)
  takeFrame : ∀ l s, takeFrame l (φ s) = φ (takeFrame l s)
  rcStage : ∀ q s, rcStage q (φ s) = φ (rcStage q s)

theorem UnseenBySearch.acceptFrame {φ : State → State} (h : UnseenBySearch φ) (l : Nat) (s : State) :
    acceptFrame l (φ s) = φ (acceptFrame l s) := by
  rw [acceptFrame_eq, acceptFrame_eq, dispatchFrame, dispatchFrame, h.cbuf, h.takeFrame, h.crRctype, h.rcStage,
    apply_ite φ]

theorem UnseenBySearch.searchRound {φ : State → State} (h : UnseenBySearch φ) (rom : Byte → Byte) (s : State) :
    searchRound rom (φ s) = (searchRound rom s).map φ := by
  have hvalid (l : Byte) : validLength (φ s) l = validLength s l := by simp only [validLength, h.crMaxlen]
  simp only [Machine.searchRound, hvalid, h.cbuf, h.crAddr, h.dropOne, h.acceptFrame]
  split
  · simp only [apply_ite (Option.map φ), Option.map_some, Option.map_none]
  · rfl

theorem UnseenBySearch.processCrsf {φ : State → State} (h : UnseenBySearch φ) (rom : Byte → Byte) (s : State) :
    processCrsf rom (φ s) = φ (processCrsf rom s) := processCrsf_map (h.searchRound rom) s

/-! ## What a receiver does not see (R45, R100, R249) -/

/-- `s` with what the stand-alone units hold taken from `u`: OPR, the two accumulators and the two staging buffers. -/
def withUnits (u s : State) : State :=
  { s with
    opr := u.opr, xora := u.xora, crca := u.crca, txCmd := u.txCmd, txN := u.txN, txOvf := u.txOvf, txb := u.txb
    dn := u.dn, dOvf := u.dOvf, dbuf := u.dbuf }

/-- The state with other waiting words, and with events in front of those it has. -/
def behind (port : List CmdWord) (past : List Event) (s : State) : State :=
  { s with port := port, events := past ++ s.events }

/-- Both changes at once: all that the two receivers do not see. -/
def beside (u : State) (port : List CmdWord) (past : List Event) (s : State) : State := behind port past (withUnits u s)

/-- The two operations that hand a byte to a receiver. -/
def IsPush (j : Instr) : Prop := (∃ b, j = .crsfPush b) ∨ ∃ b, j = .mspPush b

section Beside

variable (u : State) (port : List CmdWord) (past : List Event) (s : State)

theorem emit_beside (e : Event) : emit e (beside u port past s) = beside u port past (emit e s) := by
  simp [emit, beside, behind, withUnits]

theorem raise_beside (e : ErrorCode) : raise e (beside u port past s) = beside u port past (raise e s) := by
  rw [raise, emit_beside]
  rfl

theorem unseenBySearch_beside : UnseenBySearch (beside u port past) where
  cbuf _ := rfl
  crAddr _ := rfl
  crMaxlen _ := rfl
  crRctype _ := rfl
  dropOne _ _ := rfl
  takeFrame l s := by simp [takeFrame, emit, beside, behind, withUnits]
  rcStage q s := by
    unfold rcStage
    split
    · exact emit_beside u port past (applyFilters (decodeChannels q) s) _
    · exact raise_beside u port past s _

theorem execCrsfPush_beside (b : Byte) :
    execCrsfPush b (beside u port past s) = mapNext (beside u port past) (execCrsfPush b s) := by
  unfold execCrsfPush
  rw [show (beside u port past s).cbuf = s.cbuf from rfl]
  cases checkRoom .cbuf s.cbuf.length with
  | error f => rfl
  | ok _ => exact congrArg _ ((unseenBySearch_beside u port past).processCrsf crcRom { s with cbuf := s.cbuf ++ [b] })

theorem mspSeek_beside (b : Byte) : mspSeek b (beside u port past s) = beside u port past (mspSeek b s) := by
  simp only [mspSeek, apply_ite (beside u port past)]
  rfl

theorem mspReadPayload_beside (b : Byte) :
    mspReadPayload b (beside u port past s) = mapNext (beside u port past) (mspReadPayload b s) := by
  unfold mspReadPayload
  rw [show (beside u port past s).mspCnt = s.mspCnt from rfl]
  cases checkRoom .mspPay s.mspCnt.toNat <;> rfl

theorem mspDone_beside : mspDone (beside u port past s) = mapNext (beside u port past) (mspDone s) := by
  unfold mspDone
  rw [show (beside u port past s).mspPay = s.mspPay from rfl, show (beside u port past s).mspLen = s.mspLen from rfl]
  cases loadBytes .mspPay s.mspPay s.mspLen.toNat with
  | error f => rfl
  | ok p => simp [emit, beside, behind, withUnits]

theorem mspReadChecksum_beside (b : Byte) :
    mspReadChecksum b (beside u port past s) = mapNext (beside u port past) (mspReadChecksum b s) := by
  unfold mspReadChecksum
  rw [show (beside u port past s).mspCk = s.mspCk from rfl, apply_ite (mapNext (beside u port past)), ← mspDone_beside]
  rfl

theorem execMspPush_beside (b : Byte) :
    execMspPush b (beside u port past s) = mapNext (beside u port past) (execMspPush b s) := by
  unfold execMspPush
  rw [show (beside u port past s).mspSt = s.mspSt from rfl]
  cases s.mspSt with
  | seekHeader => exact congrArg _ (mspSeek_beside u port past s b)
  | readPayload => exact mspReadPayload_beside u port past s b
  | readChecksum => exact mspReadChecksum_beside u port past s b
  | readLength | readCommand | done => rfl

theorem exec_push_beside {j : Instr} (hj : IsPush j) :
    exec j (beside u port past s) = mapNext (beside u port past) (exec j s) := by
  obtain ⟨b, rfl⟩ | ⟨b, rfl⟩ := hj
  · exact execCrsfPush_beside u port past s b
  · exact execMspPush_beside u port past s b

/-- A push leaves what the stand-alone units hold, and the waiting words. -/
theorem push_keeps_units {j : Instr} (hj : IsPush j) {t : State} (h : exec j s = .next t) :
    withUnits s t = t ∧ t.port = s.port := by
  rw [exec_writes h]
  obtain ⟨b, rfl⟩ | ⟨b, rfl⟩ := hj <;> exact ⟨rfl, rfl⟩

theorem exec_push_behind {j : Instr} (hj : IsPush j) :
    exec j (behind port past s) = mapNext (behind port past) (exec j s) := by
  rw [show behind port past s = beside s port past s from rfl, exec_push_beside s port past s hj]
  cases h : exec j s with
  | next t => rw [mapNext_next, mapNext_next, beside, (push_keeps_units s hj h).1]
  | fault f => rfl
  | refused r => rfl

theorem exec_push_withUnits {j : Instr} (hj : IsPush j) :
    exec j (withUnits u s) = mapNext (withUnits u) (exec j s) := by
  rw [show withUnits u s = beside u s.port [] s from rfl, exec_push_beside u s.port [] s hj]
  cases h : exec j s with
  | next t => rw [mapNext_next, mapNext_next, ← (push_keeps_units s hj h).2]; rfl
  | fault f => rfl
  | refused r => rfl

end Beside

/-! ## Past events and waiting words (R45, R100) -/

section Behind

variable (port : List CmdWord) (past : List Event) (s : State)

@[simp] theorem behind_toBlock : (behind port past s).toBlock = s.toBlock := rfl
@[simp] theorem behind_params : (behind port past s).params = s.params := rfl
@[simp] theorem behind_port : (behind port past s).port = port := rfl
@[simp] theorem behind_events : (behind port past s).events = past ++ s.events := rfl

theorem emit_behind (e : Event) : emit e (behind port past s) = behind port past (emit e s) := by
  simp [emit, behind]

theorem raise_behind (e : ErrorCode) : raise e (behind port past s) = behind port past (raise e s) := by
  rw [raise, emit_behind]
  rfl

theorem execGetch_behind (imm : Byte) :
    execGetch imm (behind port past s) = mapNext (behind port past) (execGetch imm s) := by
  unfold execGetch
  split
  · exact congrArg _ (emit_behind port past s _)
  · exact congrArg _ (raise_behind port past s _)

theorem writeCtrl_behind (r : CtrlReg) (v : Byte) :
    writeCtrl r v (behind port past s) = (writeCtrl r v s).map (behind port past) := by
  cases r with
  | mfwin =>
    simp only [writeCtrl, behind_params, apply_ite (Option.map (behind port past))]
    rfl
  | addr | maxlen | rctype | err | stat => rfl

theorem execWrcr_behind (n : BitVec 4) (v : Byte) :
    execWrcr n v (behind port past s) = mapNext (behind port past) (execWrcr n v s) := by
  unfold execWrcr
  split
  · rw [writeCtrl_behind]
    cases writeCtrl _ v s with
    | some t => rfl
    | none => exact congrArg _ (raise_behind port past s _)
  · exact congrArg _ (raise_behind port past s _)

theorem execRdcr_behind (n : BitVec 4) :
    execRdcr n (behind port past s) = mapNext (behind port past) (execRdcr n s) := by
  unfold execRdcr
  split
  next r _ =>
    have hread : readCtrl (behind port past s) r = readCtrl s r := by cases r <;> rfl
    rw [hread]
    exact congrArg _ (emit_behind port past s _)
  · exact congrArg _ (raise_behind port past s _)

theorem execEncByte_behind (b : Byte) :
    execEncByte b (behind port past s) = mapNext (behind port past) (execEncByte b s) := by
  simp only [execEncByte, apply_ite (mapNext (behind port past))]
  rfl

theorem execDecByte_behind (b : Byte) :
    execDecByte b (behind port past s) = mapNext (behind port past) (execDecByte b s) := by
  simp only [execDecByte, apply_ite (mapNext (behind port past))]
  rfl

theorem execEncClose_behind : execEncClose (behind port past s) = mapNext (behind port past) (execEncClose s) := by
  unfold execEncClose
  rw [behind_toBlock]
  by_cases hovf : s.txOvf = true
  · rw [if_pos hovf, if_pos hovf, raise_behind]
    rfl
  · rw [if_neg hovf, if_neg hovf]
    cases loadBytes .txb s.txb s.txN.toNat with
    | error f => rfl
    | ok p => exact congrArg (fun u => Host.Outcome.next (encRelease u)) (emit_behind port past s _)

theorem execDecClose_behind : execDecClose (behind port past s) = mapNext (behind port past) (execDecClose s) := by
  unfold execDecClose
  rw [behind_toBlock]
  by_cases hfull : s.dn = 22#5 ∧ s.dOvf = false
  · rw [if_pos hfull, if_pos hfull]
    cases loadBytes .dbuf s.dbuf Config.rcPayload with
    | error f => rfl
    | ok p => exact congrArg (fun u => Host.Outcome.next (decRelease u)) (emit_behind port past s _)
  · rw [if_neg hfull, if_neg hfull, raise_behind]
    rfl

/-- No operation sees what was emitted before or what waits. -/
theorem exec_behind (i : Instr) : exec i (behind port past s) = mapNext (behind port past) (exec i s) := by
  cases i with
  | getage | xorRd | xorChk | crcRd => exact congrArg _ (emit_behind port past _ _)
  | getch imm => exact execGetch_behind port past s imm
  | wrcr n v => exact execWrcr_behind port past s n v
  | rdcr n => exact execRdcr_behind port past s n
  | mspPush b => exact exec_push_behind port past s (.inr ⟨b, rfl⟩)
  | mspAbort =>
    rw [exec_mspAbort, exec_mspAbort, behind_toBlock]
    by_cases hst : s.mspSt = .seekHeader
    · rw [if_pos hst, if_pos hst]
      rfl
    · rw [if_neg hst, if_neg hst]
      rfl
  | mfUpd n => exact congrArg _ (emit_behind port past (mfUpdate (channelOfMinor n) s.opr s).1 _)
  | encByte b => exact execEncByte_behind port past s b
  | encClose => exact execEncClose_behind port past s
  | crsfPush b => exact exec_push_behind port past s (.inl ⟨b, rfl⟩)
  | decByte b => exact execDecByte_behind port past s b
  | decClose => exact execDecClose_behind port past s
  | nop | srst | tick | oplo | ophi | xorInit | xorUpd | encOpen | crcInit | crcUpd | decOpen => rfl

/-- Every state is one without past events and waiting words, with its own put back. -/
theorem exists_eq_behind : ∃ u : State, s = behind s.port s.events u ∧
    ∀ port past, { s with port := port, events := past } = behind port past u :=
  ⟨{ s with port := [], events := [] }, by simp [behind], fun _ _ => by simp [behind]⟩

end Behind

theorem exec_params {i : Instr} {s t : State} (h : exec i s = .next t) : t.params = s.params := by
  rw [exec_writes h]
  cases i <;> rfl

theorem exec_port {i : Instr} {s t : State} (h : exec i s = .next t) : t.port = s.port := by
  rw [exec_writes h]
  cases i <;> rfl

/-- What an operation appends to the events it finds is what it emits with none before it. -/
theorem exec_next_appends {i : Instr} {s t : State} (h : exec i s = .next t) :
    ∃ new, t.events = s.events ++ new ∧ ∀ port past,
      exec i { s with port := port, events := past } = .next { t with port := port, events := past ++ new } := by
  obtain ⟨u, hs, hu⟩ := exists_eq_behind s
  rw [hs, exec_behind] at h
  obtain ⟨v, hv, rfl⟩ := mapNext_eq_next h
  refine ⟨v.events, rfl, fun port past => ?_⟩
  rw [hu, exec_behind, hv]
  rfl

/-- Settles O56: the operation on the state without past and port tells what it appends, whatever they are. -/
theorem pastOutputIsNoState : Obligations.PastOutputIsNoState := by
  refine ⟨fun i s t h => ⟨exec_params h, exec_port h, exec_next_appends h⟩, fun i s f port past h => ?_⟩
  obtain ⟨u, hs, hu⟩ := exists_eq_behind s
  rw [hs, exec_behind] at h
  rw [hu, exec_behind, mapNext_eq_fault h, mapNext_fault]

/-- Settles O10: an operation and an illegal word append; with nothing waiting no event comes. -/
theorem eventsAreOnlyAppended : Obligations.EventsAreOnlyAppended := by
  intro s t h
  rcases step_cases s with ⟨-, hs⟩ | ⟨w, rest, i, -, -, hs⟩ | ⟨w, rest, e, -, -, hs⟩ <;> rw [hs] at h
  · cases h
    exact ⟨[], (List.append_nil _).symm⟩
  · obtain ⟨new, hnew, -⟩ := exec_next_appends h
    exact ⟨new, hnew⟩
  · cases h
    exact ⟨[.err .illegalOp], rfl⟩

/-! ## The stand-alone units (R249) -/

/-- The operations that only stage or accumulate: they read and write nothing but the stand-alone units. -/
def ActsOnUnits (i : Instr) : Prop := ∀ u, ∃ v, ∀ s, exec i (withUnits u s) = .next (withUnits v s)

theorem actsOnUnits_encByte (b : Byte) : ActsOnUnits (.encByte b) := fun u => by
  by_cases h : u.txN < 255#8
  · exact ⟨{ u with txb := memWrite u.txb u.txN.toNat b, txN := u.txN + 1 }, fun _ => if_pos h⟩
  · exact ⟨{ u with txOvf := true }, fun _ => if_neg h⟩

theorem actsOnUnits_decByte (b : Byte) : ActsOnUnits (.decByte b) := fun u => by
  by_cases h : u.dn < 22#5
  · exact ⟨{ u with dbuf := memWrite u.dbuf u.dn.toNat b, dn := u.dn + 1 }, fun _ => if_pos h⟩
  · exact ⟨{ u with dOvf := true }, fun _ => if_neg h⟩

/-- The operations that R249 names, those that report and close left out. -/
theorem actsOnUnits_of_standAlone {i : Instr}
    (h : (∃ b, i = .xorUpd b) ∨ i = .xorInit ∨ (∃ b, i = .crcUpd b) ∨ i = .crcInit ∨ (∃ b, i = .decByte b) ∨
      i = .decOpen ∨ (∃ b, i = .encByte b) ∨ (∃ b, i = .encOpen b) ∨ (∃ b, i = .oplo b) ∨ (∃ b, i = .ophi b) ∨
      i = .nop) : ActsOnUnits i := by
  obtain ⟨b, rfl⟩ | rfl | ⟨b, rfl⟩ | rfl | ⟨b, rfl⟩ | rfl | ⟨b, rfl⟩ | ⟨b, rfl⟩ | ⟨b, rfl⟩ | ⟨b, rfl⟩ | rfl := h
  · exact fun u => ⟨{ u with xora := u.xora ^^^ b }, fun _ => rfl⟩
  · exact fun u => ⟨{ u with xora := 0x00#8 }, fun _ => rfl⟩
  · exact fun u => ⟨{ u with crca := crcStep crcRom u.crca b }, fun _ => rfl⟩
  · exact fun u => ⟨{ u with crca := 0x00#8 }, fun _ => rfl⟩
  · exact actsOnUnits_decByte b
  · exact fun u => ⟨{ u with dn := 0#5, dOvf := false }, fun _ => rfl⟩
  · exact actsOnUnits_encByte b
  · exact fun u => ⟨{ u with txCmd := b, txN := 0#8, txOvf := false }, fun _ => rfl⟩
  · exact fun u => ⟨{ u with opr := withLowByte u.opr b }, fun _ => rfl⟩
  · exact fun u => ⟨{ u with opr := withHighByte u.opr b }, fun _ => rfl⟩
  · exact fun u => ⟨u, fun _ => rfl⟩

theorem execAll_pair (i j : Instr) (s : State) :
    execAll [i, j] s = match exec i s with
      | .next t => exec j t
      | .fault f => .fault f
      | .refused r => .refused r := by
  simp only [execAll]
  cases exec i s with
  | next t => cases h : exec j t <;> simp [h]
  | fault f => rfl
  | refused r => rfl

/-- Settles O50: a push carries the change of the stand-alone units from its start to its end, and keeps what they hold. -/
theorem standAloneOperationsCommuteWithPushes : Obligations.StandAloneOperationsCommuteWithPushes := by
  intro s i j hi hj
  obtain ⟨v, hv⟩ := actsOnUnits_of_standAlone hi s
  rw [execAll_pair, execAll_pair, show exec i s = .next (withUnits v s) from hv s]
  simp only [exec_push_withUnits v s hj]
  cases ht : exec j s with
  | next t =>
    have hkeeps := (push_keeps_units s hj ht).1
    rw [mapNext_next, ← hv t, hkeeps]
  | fault f => rfl
  | refused r => rfl

end Sys2Proof.Machine
end

section
/-! PROOF. The CRSF search as a whole (spec/43_crsf_parser.md R151 to R161): progress, chunking, the capacity of CBUF, and
the delivery of a valid frame, with and without a garbage byte before it. -/

namespace Sys2Proof.Machine

/-! ## Progress (R159) -/

/-- Frames accepted so far and bytes that wait: a frame takes at least four bytes out of CBUF, so this never grows. -/
def searchBudget (s : State) : Nat := 4 * s.events.countP Event.isFrame + s.cbuf.length

theorem searchBudget_acceptFrame {l : Nat} {s : State} (hl : 2 ≤ l) (hlen : l + 2 ≤ s.cbuf.length) :
    searchBudget (acceptFrame l s) ≤ searchBudget s := by
  unfold searchBudget
  rcases acceptFrame_cases l s with h | ⟨us, -, h⟩ | h <;>
    simp only [h, List.countP_append, List.countP_cons, List.countP_nil, Event.isFrame, List.length_drop] <;> simp <;>
    omega

theorem searchBudget_round {rom : Byte → Byte} {s t : State} (h : searchRound rom s = some t) :
    searchBudget t ≤ searchBudget s := by
  have hdrop (f : ErrFlag) : searchBudget (dropOne f s) ≤ searchBudget s := by simp [searchBudget]
  obtain ⟨a, l, rest, -, ⟨-, rfl⟩ | ⟨-, -, rfl⟩ | ⟨-, -, -, -, rfl⟩ | ⟨-, hv, hl, -, rfl⟩⟩ := searchRound_eq_some h
  · exact hdrop _
  · exact hdrop _
  · exact hdrop _
  · exact searchBudget_acceptFrame ((validLength_iff s l).1 hv).1 hl

theorem searchRound_processCrsf (rom : Byte → Byte) (s : State) : searchRound rom (processCrsf rom s) = none :=
  searchLoop_settled rom _ s le_rfl

/-- Settles O33: each round takes bytes from the front of CBUF, at least four of them for a frame. -/
theorem searchTerminatesAndMakesProgress : Obligations.SearchTerminatesAndMakesProgress := by
  refine fun rom s => ⟨fun _ => searchRound_cbuf, searchRound_processCrsf rom s,
    fun n hn => searchLoop_enough rom n _ s hn le_rfl, ?_⟩
  have hbudget : searchBudget (processCrsf rom s) ≤ searchBudget s :=
    processCrsf_induct (P := fun t => searchBudget t ≤ searchBudget s)
      (fun _ _ h hle => (searchBudget_round h).trans hle) s le_rfl
  unfold searchBudget at hbudget
  omega

/-! ## Chunking (R160) -/

/-- The state with more bytes at the end of CBUF. -/
def appendCbuf (y : List Byte) (s : State) : State := { s with cbuf := s.cbuf ++ y }

/-- A slice of bytes that are there does not see bytes behind them. -/
theorem slice_append {c : List Byte} {i j : Nat} (y : List Byte) (h : j + 1 ≤ c.length) :
    slice (c ++ y) i j = slice c i j := by
  unfold slice
  rcases Nat.lt_or_ge i c.length with hi | hi
  · rw [List.drop_append_of_le_length hi.le, List.take_append_of_le_length (by rw [List.length_drop]; omega)]
  · rw [show j + 1 - i = 0 by omega, List.take_zero, List.take_zero]

theorem takeFrame_appendCbuf {l : Nat} {s : State} (y : List Byte) (h : l + 2 ≤ s.cbuf.length) :
    takeFrame l (appendCbuf y s) = appendCbuf y (takeFrame l s) := by
  simp [takeFrame, appendCbuf, emit, slice_append y h, List.drop_append_of_le_length h]

theorem dispatchFrame_appendCbuf (f : List Byte) (l : Nat) (y : List Byte) (s : State) :
    dispatchFrame f l (appendCbuf y s) = appendCbuf y (dispatchFrame f l s) := by
  unfold dispatchFrame rcStage
  rw [show (appendCbuf y s).crRctype = s.crRctype from rfl]
  split
  · split <;> rfl
  · rfl

theorem acceptFrame_appendCbuf {l : Nat} {s : State} (y : List Byte) (h : l + 2 ≤ s.cbuf.length) :
    acceptFrame l (appendCbuf y s) = appendCbuf y (acceptFrame l s) := by
  rw [acceptFrame_eq, acceptFrame_eq, takeFrame_appendCbuf y h, dispatchFrame_appendCbuf]
  congr 2
  exact slice_append y h

/-- A round on a buffer of at least two bytes (R153 to R157). -/
theorem searchRound_of_cons {rom : Byte → Byte} {s : State} {a l : Byte} {rest : List Byte}
    (hc : s.cbuf = a :: l :: rest) :
    searchRound rom s =
      if a ≠ s.crAddr then some (dropOne .crsfDesync s)
      else if validLength s l = false then some (dropOne .crsfLeninv s)
      else if s.cbuf.length < l.toNat + 2 then none
      else if crc8With rom (slice s.cbuf 2 l.toNat) ≠ s.cbuf.getD (l.toNat + 1) 0 then some (dropOne .crsfCrcerr s)
      else some (acceptFrame l.toNat s) := by
  unfold searchRound
  split
  next a' l' rest' heq =>
    obtain ⟨rfl, rfl, -⟩ : a = a' ∧ l = l' ∧ rest = rest' := by simpa [hc] using heq
    rfl
  next hshort => exact absurd hc (hshort a l rest)

/-- A round that goes on does not see bytes behind those it has. -/
theorem searchRound_appendCbuf {rom : Byte → Byte} {s t : State} (y : List Byte) (h : searchRound rom s = some t) :
    searchRound rom (appendCbuf y s) = some (appendCbuf y t) := by
  obtain ⟨a, l, rest, hc, hcase⟩ := searchRound_eq_some h
  have hbuf : (appendCbuf y s).cbuf = s.cbuf ++ y := rfl
  have hdrop (f : ErrFlag) : dropOne f (appendCbuf y s) = appendCbuf y (dropOne f s) := by
    simp [dropOne, setFlag, appendCbuf, hc]
  rw [searchRound_of_cons (a := a) (l := l) (rest := rest ++ y) (by rw [hbuf, hc]; rfl), hdrop, hdrop, hdrop,
    show (appendCbuf y s).crAddr = s.crAddr from rfl, show validLength (appendCbuf y s) l = validLength s l from rfl]
  obtain ⟨ha, rfl⟩ | ⟨rfl, hv, rfl⟩ | ⟨rfl, hv, hl, hcrc, rfl⟩ | ⟨rfl, hv, hl, hcrc, rfl⟩ := hcase
  · rw [if_pos ha]
  · rw [if_neg (not_not.2 rfl), if_pos hv]
  all_goals
    have hlen : ¬ (s.cbuf ++ y).length < l.toNat + 2 := by rw [List.length_append]; omega
    rw [if_neg (not_not.2 rfl), if_neg (by simp [hv]), hbuf, if_neg hlen, slice_append y (by omega),
      List.getD_append _ _ _ _ (by omega)]
  · rw [if_pos hcrc]
  · rw [if_neg (not_not.2 hcrc), acceptFrame_appendCbuf y hl]

/-- R160: two chunks are one. -/
theorem feedCrsf_append (rom : Byte → Byte) (s : State) (x y : List Byte) :
    feedCrsf rom y (feedCrsf rom x s) = feedCrsf rom (x ++ y) s := by
  have hthrough := processCrsf_through (fun _ _ => searchRound_appendCbuf (rom := rom) y) { s with cbuf := s.cbuf ++ x }
  have happend : appendCbuf y { s with cbuf := s.cbuf ++ x } = { s with cbuf := s.cbuf ++ (x ++ y) } := by
    simp [appendCbuf]
  rw [happend] at hthrough
  exact hthrough.symm

/-- R160: any cutting into chunks. -/
theorem foldl_feedCrsf (rom : Byte → Byte) (s : State) (chunks : List (List Byte)) (c : List Byte) :
    chunks.foldl (fun t c => feedCrsf rom c t) (feedCrsf rom c s) = feedCrsf rom (c ++ chunks.flatten) s := by
  induction chunks generalizing c with
  | nil => simp
  | cons d chunks ih => rw [List.foldl_cons, feedCrsf_append, ih, List.flatten_cons, List.append_assoc]

/-! ## Capacity (R161) -/

/-- Where the search has returned at most one byte waits, or a candidate that is not complete. -/
theorem processCrsf_waits (rom : Byte → Byte) (s : State) :
    (processCrsf rom s).cbuf.length < 2 ∨
      ∃ l rest, (processCrsf rom s).cbuf = (processCrsf rom s).crAddr :: l :: rest ∧
        validLength (processCrsf rom s) l = true ∧ (processCrsf rom s).cbuf.length < l.toNat + 2 :=
  (searchRound_eq_none_iff rom _).1 (searchRound_processCrsf rom s)

/-- A length byte bounds what waits. -/
theorem processCrsf_cbuf_length (rom : Byte → Byte) (s : State) : (processCrsf rom s).cbuf.length ≤ 256 := by
  rcases processCrsf_waits rom s with h | ⟨l, rest, -, -, h⟩
  · omega
  · have := l.isLt
    omega

theorem exec_crsfPush {s : State} (h : s.cbuf.length ≤ 256) (b : Byte) :
    exec (.crsfPush b) s = .next (feedCrsf crcRom [b] s) := by
  show execCrsfPush b s = _
  rcases execCrsfPush_cases b s with ⟨-, h'⟩ | ⟨hfull, -⟩
  · exact h'
  · omega

/-- R160: pushing a stream byte by byte feeds it. -/
theorem execAll_crsfSend {s : State} (h : s.cbuf.length ≤ 256) (b : Byte) (bytes : List Byte) :
    execAll (crsfSend (b :: bytes)) s = .next (feedCrsf crcRom (b :: bytes) s) := by
  induction bytes generalizing s b with
  | nil => exact execAll_cons_next (exec_crsfPush h b) []
  | cons c bytes ih =>
    rw [crsfSend, List.map_cons, execAll_cons_next (exec_crsfPush h b)]
    exact (ih (processCrsf_cbuf_length crcRom _) c).trans (congrArg _ (feedCrsf_append crcRom s [b] (c :: bytes)))

/-- Settles O31: the word, and the push with room for its byte. -/
theorem crsfPushAppendsThenSearches : Obligations.CrsfPushAppendsThenSearches :=
  ⟨Laws.RoundTrip.crsfPush, fun _ b h => exec_crsfPush h b⟩

/-- Settles O34: two chunks, by what a round does not see; any chunks and single bytes by induction. -/
theorem chunkingDoesNotMatter : Obligations.ChunkingDoesNotMatter := by
  refine ⟨feedCrsf_append, fun rom s chunks hne => ?_, fun s bytes h hne => ?_⟩
  · obtain ⟨c, chunks, rfl⟩ := List.exists_cons_of_ne_nil hne
    exact foldl_feedCrsf rom s chunks c
  · obtain ⟨b, bytes, rfl⟩ := List.exists_cons_of_ne_nil hne
    exact execAll_crsfSend h b bytes

theorem exec_cbuf {i : Instr} {s t : State} (h : exec i s = .next t) (hpush : ∀ b, i ≠ .crsfPush b)
    (hsrst : i ≠ .srst) : t.cbuf = s.cbuf := by
  rw [exec_writes h]
  cases i with
  | crsfPush b => exact absurd rfl (hpush b)
  | srst => exact absurd rfl hsrst
  | _ => rfl

/-- No operation leaves more than 256 bytes where there were not more. -/
theorem exec_cbuf_length {i : Instr} {s t : State} (h : exec i s = .next t) (hlen : s.cbuf.length ≤ 256) :
    t.cbuf.length ≤ 256 := by
  by_cases hpush : ∃ b, i = .crsfPush b
  · obtain ⟨b, rfl⟩ := hpush
    cases (exec_crsfPush hlen b).symm.trans h
    exact processCrsf_cbuf_length crcRom _
  · by_cases hsrst : i = .srst
    · subst hsrst
      cases h
      exact Nat.zero_le _
    · rw [exec_cbuf h (fun b hb => hpush ⟨b, hb⟩) hsrst]
      exact hlen

/-- Settles O35: what waits where the search returns; only CRSF_PUSH and SRST write CBUF. -/
theorem crsfBufferNeverOverflows : Obligations.CrsfBufferNeverOverflows := by
  refine ⟨?_, fun s b h => ⟨_, exec_crsfPush h b, processCrsf_cbuf_length crcRom _⟩, fun s t hlen h => ?_,
    fun s t n v h => exec_cbuf h nofun nofun⟩
  · rintro rom s _ rfl
    refine ⟨?_, processCrsf_cbuf_length rom s, fun hmax => ?_⟩
    · refine (processCrsf_waits rom s).imp_right ?_
      rintro ⟨l, rest, hc, hv, hl⟩
      obtain ⟨hlow, hhigh⟩ := (validLength_iff _ l).1 hv
      exact ⟨l, rest, hc, hlow, hhigh, hl⟩
    · rcases processCrsf_waits rom s with h | ⟨l, rest, -, hv, hl⟩
      · omega
      · have hhigh := ((validLength_iff _ l).1 hv).2
        rw [hmax] at hhigh
        have : (62#8).toNat = 62 := rfl
        omega
  · rcases step_cases s with ⟨-, hs⟩ | ⟨w, rest, i, -, -, hs⟩ | ⟨w, rest, e, -, -, hs⟩ <;> rw [hs] at h
    · cases h
      exact hlen
    · exact exec_cbuf_length h hlen
    · cases h
      exact hlen

/-! ## Delivery (R157, R158, R160) -/

/-- A frame pushed into an empty buffer is delivered by one round, if that round leaves nothing. -/
theorem execAll_crsfSend_of_round {s t : State} {l : Byte} {body : List Byte} (hempty : s.cbuf = [])
    (hround : searchRound crcRom { s with cbuf := frameBytes crcRom s l body } = some t) (ht : t.cbuf = []) :
    execAll (crsfSend (frameBytes crcRom s l body)) s = .next t := by
  rw [frameBytes, execAll_crsfSend (by simp [hempty]), ← frameBytes, feedCrsf, hempty, List.nil_append,
    processCrsf_of_some hround, processCrsf_of_none ((searchRound_eq_none_iff crcRom t).2 (.inl (by simp [ht])))]

/-- A valid frame stays one whatever stands in CBUF. -/
theorem ValidFrame.of_cbuf {s : State} {l : Byte} {body : List Byte} (h : ValidFrame s l body) (c : List Byte) :
    ValidFrame { s with cbuf := c } l body := ⟨h.lengthLow, h.lengthHigh, h.bodyLength⟩

/-- Settles O36: the one round of each kind of frame, which leaves nothing in CBUF. -/
theorem validFrameIsDelivered : Obligations.ValidFrameIsDelivered := by
  refine ⟨fun s l ty payload hc hv hty => ?_, fun s l payload hc hv hlen => ⟨_, rfl, ?_⟩,
    fun s l payload hc hv hlen => ?_⟩
  · rw [execAll_crsfSend_of_round hc
      (searchRound_otherType (more := []) (List.append_nil _).symm (hv.of_cbuf _) hty) rfl]
    simp only [hc]
    rfl
  · rw [execAll_crsfSend_of_round hc
      (searchRound_rcFrame (more := []) (List.append_nil _).symm (hv.of_cbuf _) hlen) rfl]
    simp only [hc]
    rfl
  · rw [execAll_crsfSend_of_round hc
      (searchRound_rcBadLength (more := []) (List.append_nil _).symm (hv.of_cbuf _) hlen) rfl]
    simp only [hc]
    rfl

theorem unseenBySearch_setFlag (f : ErrFlag) : UnseenBySearch (setFlag f) where
  cbuf _ := rfl
  crAddr _ := rfl
  crMaxlen _ := rfl
  crRctype _ := rfl
  dropOne g s := setFlag_comm g f { s with cbuf := s.cbuf.drop 1 }
  takeFrame _ _ := rfl
  rcStage q s := by
    unfold rcStage
    split
    · rfl
    · exact setFlag_comm _ f (emit (.err .invalidPayloadLength) s)

/-- A byte that the first round drops with a flag costs the stream behind it that flag and nothing else. -/
theorem execAll_crsfSend_garbage {s : State} {f : ErrFlag} {g b : Byte} {bytes : List Byte} (hempty : s.cbuf = [])
    (hround : searchRound crcRom { s with cbuf := g :: b :: bytes } =
      some (setFlag f { s with cbuf := b :: bytes })) :
    ∃ t, execAll (crsfSend (b :: bytes)) s = .next t ∧
      execAll (crsfSend (g :: b :: bytes)) s = .next (setFlag f t) := by
  have hlen : s.cbuf.length ≤ 256 := by simp [hempty]
  refine ⟨_, execAll_crsfSend hlen b bytes, ?_⟩
  rw [execAll_crsfSend hlen, feedCrsf, feedCrsf, hempty, List.nil_append, List.nil_append, processCrsf_of_some hround,
    (unseenBySearch_setFlag f).processCrsf]

/-- Settles O37: the round that drops the garbage byte, and a search that does not see the flag it sets. -/
theorem garbageByteDoesNotLoseTheFrame : Obligations.GarbageByteDoesNotLoseTheFrame := by
  intro s l body g hc _
  refine ⟨fun hg => execAll_crsfSend_garbage hc (searchRound_desync rfl hg), ?_⟩
  rintro rfl hinvalid
  exact execAll_crsfSend_garbage hc (searchRound_invalidLength rfl hinvalid)

end Sys2Proof.Machine
end

section
/-! PROOF. Sequences on the XOR accumulator (spec/40_checksum_xor.md R112 to R115, R89) and the laws of the CRC and its
table (spec/42_crc8.md R141, R142, R146). -/

namespace Sys2Proof.Machine

/-! ## The XOR accumulator over a sequence -/

/-- R113 for each byte: the accumulator goes on from where it stands. -/
theorem execAll_xorUpd (bytes : List Byte) (s : State) :
    execAll (bytes.map .xorUpd) s = .next { s with xora := s.xora ^^^ xorFold bytes } := by
  induction bytes generalizing s with
  | nil => simp [execAll]
  | cons b bytes ih => rw [List.map_cons, execAll_cons_next (exec_xorUpd b s), ih, xorFold_cons, BitVec.xor_assoc]

/-- XOR_INIT and an XOR_UPD for each byte leave the fold in XORA, whatever comes next. -/
theorem execAll_xorInit_xorUpd (bytes : List Byte) (last : Instr) (s : State) :
    execAll (.xorInit :: bytes.map .xorUpd ++ [last]) s = execAll [last] { s with xora := xorFold bytes } := by
  rw [List.cons_append, execAll_cons_next (exec_xorInit s), execAll_append_next (execAll_xorUpd bytes _),
    BitVec.zero_xor]

/-- Settles O22: the fold is in XORA when it is read or compared; the comparison is symmetric. -/
theorem xorSequencesReportTheFold : Obligations.XorSequencesReportTheFold := by
  refine ⟨fun s bytes => ?_, fun s r bytes => ?_⟩
  · rw [xorSum, execAll_xorInit_xorUpd, execAll_cons_next (exec_xorRd _)]
    rfl
  · rw [xorVal, execAll_xorInit_xorUpd, execAll_cons_next (exec_xorChk r _)]
    simp only [execAll, eq_comm]

/-! ## The table of R141 -/

/-- A round shifts its argument up by one place and adds the polynomial, which has bit 0, exactly when bit 7 falls out: bit
0 tells whether it did, and the other bits are still there. -/
theorem crcGenRound_injective : Function.Injective crcGenRound := by
  have hlow (c : Byte) : (crcGenRound c).getLsbD 0 = c.getLsbD 7 := by
    unfold crcGenRound
    split <;> simp_all [Config.crcPoly]
  intro x y h
  have htop : x.getLsbD 7 = y.getLsbD 7 := by rw [← hlow, ← hlow, h]
  have hshift : x <<< 1 = y <<< 1 := by
    unfold crcGenRound at h
    rw [htop] at h
    split at h
    · exact (BitVec.xor_left_inj _).1 h
    · exact h
  apply BitVec.eq_of_getLsbD_eq
  intro i hi
  rcases Nat.lt_or_ge i 7 with hlt | hge
  · have hbit := congrArg (BitVec.getLsbD · (i + 1)) hshift
    simpa [hi, show i + 1 < 8 by omega] using hbit
  · rwa [show i = 7 by omega]

theorem crcGen_injective : Function.Injective crcGen := fun _ _ h =>
  crcGenRound_injective <| crcGenRound_injective <| crcGenRound_injective <| crcGenRound_injective <|
    crcGenRound_injective <| crcGenRound_injective <| crcGenRound_injective <| crcGenRound_injective h

/-- The 256 entries, each against eight rounds. -/
theorem crcRom_eq_crcGen (i : Byte) : crcRom i = crcGen i := by
  have hall : ∀ row col : BitVec 4, crcRom (row ++ col) = crcGen (row ++ col) := by decide
  have hsplit : i = i.extractLsb' 4 4 ++ i.extractLsb' 0 4 := by
    rw [BitVec.extractLsb'_append_extractLsb'_eq_extractLsb' (by omega)]
    simp
  rw [hsplit]
  exact hall _ _

theorem crcRom_injective : Function.Injective crcRom := fun x y h =>
  crcGen_injective (by rw [← crcRom_eq_crcGen, ← crcRom_eq_crcGen, h])

/-- Settles O23: the entries one by one, and the generator's rounds as injective maps. -/
theorem crcRomIsGeneratedAndInjective : Obligations.CrcRomIsGeneratedAndInjective :=
  ⟨crcRom_eq_crcGen, crcRom_injective⟩

/-! ## The laws of `crc8` (R142, R146) -/

theorem crc8With_concat (rom : Byte → Byte) (s : List Byte) (b : Byte) :
    crc8With rom (s ++ [b]) = rom (crc8With rom s ^^^ b) := by
  simp [crc8With, crcStep]

theorem crc8With_zero_cons {rom : Byte → Byte} (h : rom 0 = 0) (s : List Byte) :
    crc8With rom (0 :: s) = crc8With rom s :=
  congrArg (fun c => s.foldl (crcStep rom) c) h

theorem crc8With_self (rom : Byte → Byte) (s : List Byte) : crc8With rom (s ++ [crc8With rom s]) = rom 0 := by
  rw [crc8With_concat, BitVec.xor_self]
  rfl

/-- Folding more bytes keeps two accumulators apart. -/
theorem foldl_crcStep_injective {rom : Byte → Byte} (h : Function.Injective rom) (s : List Byte) :
    Function.Injective fun c => s.foldl (crcStep rom) c := by
  induction s with
  | nil => exact fun _ _ hxy => hxy
  | cons b s ih => exact fun _ _ hxy => crcStep_injective h b (ih hxy)

/-- Where two sequences differ in one byte, the accumulators part and never meet again. -/
theorem crc8With_ne_of_byte_ne {rom : Byte → Byte} (h : Function.Injective rom) {x y : Byte} (hxy : x ≠ y)
    (pre post : List Byte) : crc8With rom (pre ++ x :: post) ≠ crc8With rom (pre ++ y :: post) := by
  intro heq
  rw [crc8With, crc8With, List.foldl_append, List.foldl_append] at heq
  have hstep := h (foldl_crcStep_injective h post heq)
  exact hxy ((BitVec.xor_right_inj _).1 hstep)

/-- Settles O25: the fold byte by byte, and the two properties of the table that the laws need. -/
theorem crcLaws : Obligations.CrcLaws :=
  ⟨fun _ => rfl, crc8With_concat, fun _ s h => crc8With_zero_cons h s, crc8With_self,
    fun _ pre post _ _ h hxy => crc8With_ne_of_byte_ne h hxy pre post, rfl, crcRom_injective⟩

end Sys2Proof.Machine
end

section
/-! PROOF. Little-endian numbers (spec/20_memory.md R66, R67), the report of the age (spec/46_session_system_ops.md R204),
and the channel unpacker (spec/44_channel_decoder.md R171, R172) as the digits of one number. -/

namespace Sys2Proof.Machine

/-! ## Little-endian numbers -/

@[simp] theorem length_leBytes {w : Nat} (v : BitVec w) (n : Nat) : (leBytes v n).length = n := by
  induction n generalizing v with
  | zero => rfl
  | succ n ih => simp [leBytes, ih]

/-- The bytes of a value give it back, cut to as many bytes as there are. -/
theorem leNumber_leBytes {w : Nat} (v : BitVec w) (n : Nat) : leNumber (leBytes v n) = v.toNat % 256 ^ n := by
  induction n generalizing v with
  | zero => simp [leBytes, leNumber, Nat.mod_one]
  | succ n ih =>
    have hpow : 256 ^ (n + 1) = 256 * 256 ^ n := pow_succ' 256 n
    rw [leBytes, leNumber, ih, BitVec.extractLsb'_toNat, BitVec.toNat_ushiftRight, Nat.shiftRight_eq_div_pow,
      Nat.shiftRight_eq_div_pow, hpow, Nat.mod_mul]
    simp

theorem leNumber_lt (p : List Byte) : leNumber p < 256 ^ p.length := by
  induction p with
  | nil => simp [leNumber]
  | cons b p ih =>
    have := b.isLt
    rw [leNumber, List.length_cons, pow_succ']
    omega

/-- Sequences of one length are told apart by their numbers. -/
theorem leNumber_injective {p q : List Byte} (hlen : p.length = q.length) (h : leNumber p = leNumber q) : p = q := by
  induction p generalizing q with
  | nil => exact (List.length_eq_zero_iff.1 hlen.symm).symm
  | cons b p ih =>
    obtain ⟨c, q, rfl⟩ := List.exists_cons_of_length_eq_add_one hlen.symm
    have hb := b.isLt
    have hc := c.isLt
    simp only [leNumber] at h
    have hhead : b = c := BitVec.eq_of_toNat_eq (by omega)
    have htail : p = q := ih (by simpa using hlen) (by omega)
    rw [hhead, htail]

/-- Leaving out the first bytes divides the number. -/
theorem leNumber_drop (p : List Byte) (k : Nat) : leNumber (p.drop k) = leNumber p / 256 ^ k := by
  induction k generalizing p with
  | zero => simp
  | succ k ih =>
    cases p with
    | nil => simp [leNumber]
    | cons b p =>
      have := b.isLt
      rw [List.drop_succ_cons, ih, leNumber, pow_succ', ← Nat.div_div_eq_div_mul]
      congr 1
      omega

/-- The three lowest bytes of a number, with the rest. -/
theorem leNumber_eq_three (p : List Byte) :
    leNumber p = (p.getD 0 0).toNat + 2 ^ 8 * (p.getD 1 0).toNat + 2 ^ 16 * (p.getD 2 0).toNat +
      2 ^ 24 * leNumber (p.drop 3) := by
  rcases p with _ | ⟨a, _ | ⟨b, _ | ⟨c, p⟩⟩⟩ <;> simp [leNumber]
  omega

/-! ## GETAGE (R108, R204) -/

theorem age_bytes (p : Config.Params) (a : Nat) :
    (Event.age a).bytes p = 0x08#8 :: leBytes (BitVec.ofNat p.ageW a) (p.ageW / 8) := rfl

/-- The bytes of an age that fits give it back. -/
theorem leNumber_age_body {p : Config.Params} (hwidth : p.ageW % 8 = 0) {a : Nat} (ha : a < 2 ^ p.ageW) :
    leNumber (leBytes (BitVec.ofNat p.ageW a) (p.ageW / 8)) = a := by
  have hpow : 256 ^ (p.ageW / 8) = 2 ^ p.ageW := by
    rw [show 256 = 2 ^ 8 from rfl, ← pow_mul, Nat.mul_div_cancel' (Nat.dvd_of_mod_eq_zero hwidth)]
  rw [leNumber_leBytes, BitVec.toNat_ofNat, hpow, Nat.mod_mod, Nat.mod_eq_of_lt ha]

theorem age_bytes_toNat_of_32 {p : Config.Params} (hwidth : p.ageW = 32) {a : Nat} (ha : a < 2 ^ 32) :
    ((Event.age a).bytes p).map BitVec.toNat = [8, a % 256, a / 2 ^ 8 % 256, a / 2 ^ 16 % 256, a / 2 ^ 24] := by
  have htop : a / 2 ^ 24 % 256 = a / 2 ^ 24 := Nat.mod_eq_of_lt (by omega)
  rw [age_bytes, hwidth, ← htop]
  simp only [Nat.reduceDiv, leBytes, List.map_cons, List.map_nil, BitVec.extractLsb'_toNat, BitVec.toNat_ushiftRight,
    Nat.shiftRight_eq_div_pow, Nat.div_div_eq_div_mul, BitVec.toNat_ofNat, Nat.mod_eq_of_lt ha]
  norm_num

/-- Settles O15: the word, the event, and its bytes as a little-endian number. -/
theorem getageReportsAge : Obligations.GetageReportsAge :=
  ⟨Laws.RoundTrip.getage, fun _ => rfl,
    fun p a => ⟨_, age_bytes p a, length_leBytes _ _, fun hwidth ha => leNumber_age_body hwidth ha⟩,
    fun _ _ hwidth ha => age_bytes_toNat_of_32 hwidth ha⟩

/-! ## The unpacker (R171, R172) -/

/-- The first `n` fields of 11 bits of a number, lowest first. -/
def fields (n N : Nat) : List Raw := (List.range n).map fun i => BitVec.ofNat 11 (N / 2 ^ (11 * i))

theorem fields_succ (n N : Nat) : fields (n + 1) N = BitVec.ofNat 11 N :: fields n (N / 2 ^ 11) := by
  have htail (i : Nat) : N / 2 ^ 11 / 2 ^ (11 * i) = N / 2 ^ (11 * (i + 1)) := by
    rw [Nat.div_div_eq_div_mul, ← pow_add, Nat.mul_succ, Nat.add_comm]
  simp only [fields, List.range_succ_eq_map, List.map_cons, List.map_map, Function.comp_def, htail, Nat.mul_zero,
    pow_zero, Nat.div_one, Nat.succ_eq_add_one]

/-- The accumulator after a byte: the bits held stay, and the byte stands above them. -/
theorem accumulator_toNat {acc : BitVec 18} {n : Nat} (hn : n < 11) (hacc : acc.toNat < 2 ^ n) (b : Byte) :
    (acc ||| (b.zeroExtend 18 <<< n)).toNat = acc.toNat + 2 ^ n * b.toNat := by
  have hpow : 2 ^ n ≤ 2 ^ 10 := Nat.pow_le_pow_right (by omega) (by omega)
  have hfits : b.toNat * 2 ^ n < 2 ^ 18 := by
    calc b.toNat * 2 ^ n ≤ b.toNat * 2 ^ 10 := Nat.mul_le_mul_left _ hpow
      _ < 2 ^ 18 := by have := b.isLt; omega
  have hbyte : (b.zeroExtend 18 <<< n).toNat = 2 ^ n * b.toNat := by
    have hb : b.toNat < 2 ^ 18 := by have := b.isLt; omega
    rw [BitVec.toNat_shiftLeft, BitVec.toNat_setWidth, Nat.shiftLeft_eq, Nat.mod_eq_of_lt hb, Nat.mod_eq_of_lt hfits,
      Nat.mul_comm]
  rw [BitVec.toNat_or, hbyte, Nat.or_comm, ← Nat.two_pow_add_eq_or_of_lt hacc, Nat.add_comm]

/-- The accumulator procedure gives the fields of the bits held and the bytes to come, read as one number. -/
theorem unpackFrom_eq_fields (p : List Byte) {acc : BitVec 18} {n : Nat} (hn : n < 11) (hacc : acc.toNat < 2 ^ n) :
    unpackFrom acc n p = fields ((n + 8 * p.length) / 11) (acc.toNat + 2 ^ n * leNumber p) := by
  induction p generalizing acc n with
  | nil => simp [unpackFrom, fields, Nat.div_eq_of_lt hn]
  | cons b p ih =>
    have hbyte := accumulator_toNat hn hacc b
    have hnext : (acc ||| (b.zeroExtend 18 <<< n)).toNat < 2 ^ (n + 8) := by
      have hb := b.isLt
      have hle : 2 ^ n * b.toNat ≤ 2 ^ n * 255 := Nat.mul_le_mul_left _ (by omega)
      rw [hbyte, pow_add]
      omega
    have hnumber : acc.toNat + 2 ^ n * leNumber (b :: p) =
        (acc ||| (b.zeroExtend 18 <<< n)).toNat + 2 ^ (n + 8) * leNumber p := by
      rw [hbyte, leNumber, pow_add]
      ring
    simp only [unpackFrom, List.length_cons, hnumber]
    generalize acc ||| (b.zeroExtend 18 <<< n) = acc' at hnext ⊢
    split
    next hfull =>
      have hpow (k : Nat) : 2 ^ (n + 8) * k = 2048 * (2 ^ (n + 8 - 11) * k) := by
        rw [← Nat.mul_assoc, show 2048 = 2 ^ 11 from rfl, ← pow_add, Nat.add_sub_cancel' hfull]
      have hrest : (acc' >>> 11).toNat < 2 ^ (n + 8 - 11) := by
        have := hpow 1
        rw [BitVec.toNat_ushiftRight, Nat.shiftRight_eq_div_pow]
        omega
      have hcount : (n + 8 * (p.length + 1)) / 11 = (n + 8 - 11 + 8 * p.length) / 11 + 1 := by omega
      have hfield : acc'.extractLsb' 0 11 = BitVec.ofNat 11 (acc'.toNat + 2 ^ (n + 8) * leNumber p) := by
        apply BitVec.eq_of_toNat_eq
        rw [BitVec.extractLsb'_toNat, BitVec.toNat_ofNat, hpow]
        simp only [Nat.shiftRight_zero]
        omega
      rw [ih (by omega) hrest, hcount, fields_succ, ← hfield, hpow, BitVec.toNat_ushiftRight,
        Nat.shiftRight_eq_div_pow]
      congr 2
      omega
    next hshort =>
      rw [ih (by omega) hnext]
      congr 2
      omega

/-- R172: on 22 bytes, the fields of the payload's number. -/
theorem unpack11_eq_fields {p : List Byte} (h : p.length = 22) : unpack11 p = fields 16 (leNumber p) := by
  rw [unpack11, unpackFrom_eq_fields p (by omega) (by simp), h]
  simp

/-- The fields of 22 bytes give their number back. -/
theorem eq_of_fields_eq {n N M : Nat} (hN : N < 2048 ^ n) (hM : M < 2048 ^ n) (h : fields n N = fields n M) : N = M := by
  induction n generalizing N M with
  | zero => omega
  | succ n ih =>
    rw [fields_succ, fields_succ, List.cons.injEq] at h
    rw [pow_succ'] at hN hM
    have hhead : N % 2 ^ 11 = M % 2 ^ 11 := by simpa using congrArg BitVec.toNat h.1
    have htail := ih (by omega) (by omega) h.2
    omega

/-- The number with given fields of 11 bits, lowest first. -/
def fieldNumber : List Raw → Nat
  | [] => 0
  | r :: rs => r.toNat + 2048 * fieldNumber rs

theorem fieldNumber_lt (r : List Raw) : fieldNumber r < 2048 ^ r.length := by
  induction r with
  | nil => simp [fieldNumber]
  | cons x r ih =>
    have := x.isLt
    rw [fieldNumber, List.length_cons, pow_succ']
    omega

theorem fields_fieldNumber (r : List Raw) : fields r.length (fieldNumber r) = r := by
  induction r with
  | nil => rfl
  | cons x r ih =>
    have hx := x.isLt
    have hhead : BitVec.ofNat 11 (fieldNumber (x :: r)) = x := BitVec.eq_of_toNat_eq (by
      rw [BitVec.toNat_ofNat, fieldNumber]
      omega)
    have htail : fieldNumber (x :: r) / 2 ^ 11 = fieldNumber r := by
      rw [fieldNumber]
      omega
    rw [List.length_cons, fields_succ, hhead, htail, ih]

/-- R172: a field comes from the three bytes that its bits can lie in. -/
theorem unpackField_toNat_three (p : List Byte) (i : Nat) :
    (unpackField p i).toNat =
      ((p.getD (11 * i / 8) 0).toNat + 2 ^ 8 * (p.getD (11 * i / 8 + 1) 0).toNat +
        2 ^ 16 * (p.getD (11 * i / 8 + 2) 0).toNat) / 2 ^ (11 * i % 8) % 2048 := by
  have hsplit : leNumber p / 2 ^ (11 * i) = leNumber (p.drop (11 * i / 8)) / 2 ^ (11 * i % 8) := by
    rw [leNumber_drop, show 256 = 2 ^ 8 from rfl, ← pow_mul, Nat.div_div_eq_div_mul, ← pow_add, Nat.div_add_mod]
  have hget (k : Nat) : (p.drop (11 * i / 8)).getD k 0 = p.getD (11 * i / 8 + k) 0 := by
    simp [List.getD_eq_getElem?_getD]
  have hshift : 11 * i % 8 < 8 := Nat.mod_lt _ (by omega)
  rw [unpackField, BitVec.toNat_ofNat, hsplit, leNumber_eq_three, hget, hget, hget, Nat.add_zero]
  generalize 11 * i % 8 = k at hshift ⊢
  interval_cases k <;> omega

/-- Every 16 fields are those of some payload: the bytes of their number. -/
theorem exists_unpack11_eq {r : List Raw} (h : r.length = 16) : ∃ p : List Byte, p.length = 22 ∧ unpack11 p = r := by
  refine ⟨leBytes (BitVec.ofNat 176 (fieldNumber r)) 22, length_leBytes _ _, ?_⟩
  have hlt : fieldNumber r < 2 ^ 176 := (fieldNumber_lt r).trans_eq (by rw [h]; norm_num)
  have hnumber : leNumber (leBytes (BitVec.ofNat 176 (fieldNumber r)) 22) = fieldNumber r := by
    rw [leNumber_leBytes, BitVec.toNat_ofNat, Nat.mod_eq_of_lt hlt, Nat.mod_eq_of_lt (hlt.trans_eq (by norm_num))]
  rw [unpack11_eq_fields (length_leBytes _ _), hnumber, ← h, fields_fieldNumber]

/-- Settles O38: the procedure gives the fields of the payload's number, and numbers and fields determine each other. -/
theorem unpackerEqualsClosedForm : Obligations.UnpackerEqualsClosedForm := by
  refine ⟨fun p hp => unpack11_eq_fields hp, fun p i _ _ => unpackField_toNat_three p i, fun p q hp hq h => ?_,
    fun r => exists_unpack11_eq⟩
  rw [unpack11_eq_fields hp, unpack11_eq_fields hq] at h
  have hbound {p : List Byte} (hp : p.length = 22) : leNumber p < 2048 ^ 16 :=
    (leNumber_lt p).trans_eq (by rw [hp]; norm_num)
  exact leNumber_injective (hp.trans hq.symm) (eq_of_fields_eq (hbound hp) (hbound hq) h)

end Sys2Proof.Machine
end

section
/-! PROOF. The decoded values (spec/44_channel_decoder.md R174 to R179) and the median filter (spec/45_median_filter.md R190
to R195): a payload sent byte by byte, the loop over the channels, windows and the bounds of what a filter returns. -/

namespace Sys2Proof.Machine

/-! ## The microsecond map (R175) -/

theorem inRange_mapUs (r : Raw) : InRange (mapUs r) := by
  refine ⟨?_, mapUs_toNat_le r⟩
  rw [mapUs_toNat]
  omega

/-- Settles O40: order, range and values from the map's formula. -/
theorem microsecondMapRange : Obligations.MicrosecondMapRange := by
  refine ⟨fun r r' h => ?_, inRange_mapUs, fun r h => ?_, fun r h => ?_, rfl, rfl, rfl, rfl, rfl, rfl⟩
  all_goals simp only [mapUs_toNat_reduced]
  · gcongr
  · omega
  · omega

/-! ## A payload sent to the stand-alone decoder (R174, R179) -/

/-- The decoded values are those of the fields of the closed form (R172). -/
theorem decodeChannels_getElem {p : List Byte} (h : p.length = 22) (k : Fin 16) :
    (decodeChannels p)[k] = mapUs (unpackField p k.val) := by
  simp [decodeChannels, unpack11_eq_fields h, fields, unpackField]

/-- R178 for each byte of `p`, with `q` staged and room for both: `q ++ p` is staged. -/
theorem execAll_decByte_stages (p : List Byte) {q : List Byte} {s : State} (hq : memPrefix s.dbuf s.dn.toNat = some q)
    (hroom : s.dn.toNat + p.length ≤ 22) :
    ∃ dbuf : Memory, memPrefix dbuf (s.dn.toNat + p.length) = some (q ++ p) ∧
      execAll (p.map .decByte) s = .next { s with dbuf := dbuf, dn := BitVec.ofNat 5 (s.dn.toNat + p.length) } := by
  induction p generalizing q s with
  | nil => exact ⟨s.dbuf, by simpa using hq, by simp [execAll]⟩
  | cons b p ih =>
    rw [List.length_cons] at hroom
    have hcnt : (BitVec.ofNat 5 (s.dn.toNat + 1)).toNat = s.dn.toNat + 1 := Nat.mod_eq_of_lt (by omega)
    obtain ⟨dbuf, hdbuf, hrun⟩ := ih (q := q ++ [b])
      (s := { s with dbuf := memWrite s.dbuf s.dn.toNat b, dn := BitVec.ofNat 5 (s.dn.toNat + 1) })
      (by rw [hcnt]; exact memPrefix_memWrite_push b hq) (by rw [hcnt]; omega)
    rw [hcnt, Nat.add_assoc, Nat.add_comm 1] at hdbuf hrun
    refine ⟨dbuf, by simpa using hdbuf, ?_⟩
    rw [List.map_cons, execAll_cons_next (exec_decByte_stages (by omega) b), hrun]
    rfl

/-- R178 for each byte of `p`, with 22 bytes staged: no byte is stored, and one of them is enough for DOVF. -/
theorem execAll_decByte_full (p : List Byte) {s : State} (h : 22 ≤ s.dn.toNat) :
    execAll (p.map .decByte) s = .next { s with dOvf := s.dOvf || !p.isEmpty } := by
  induction p generalizing s with
  | nil => simp [execAll]
  | cons b p ih =>
    rw [List.map_cons, execAll_cons_next (exec_decByte_full h b), ih (s := { s with dOvf := true }) h]
    simp

/-- DEC_OPEN and up to 22 times DEC_BYTE stage the bytes. -/
theorem execAll_decOpen_decByte {p : List Byte} (h : p.length ≤ 22) (s : State) :
    ∃ dbuf : Memory, memPrefix dbuf p.length = some p ∧
      execAll (.decOpen :: p.map .decByte) s =
        .next { s with dbuf := dbuf, dn := BitVec.ofNat 5 p.length, dOvf := false } := by
  simpa [execAll_cons_next (exec_decOpen s)] using
    execAll_decByte_stages p (q := []) (s := { s with dn := 0#5, dOvf := false }) rfl (by simpa using h)

/-- R174 for a payload of 22 bytes. -/
theorem execAll_decodeOps_exact {p : List Byte} (h : p.length = 22) (s : State) :
    ∃ dbuf : Memory, execAll (decodeOps p) s = .next { s with
      dn := 0#5, dOvf := false, dbuf := dbuf, events := s.events ++ [.dec (decodeChannels p)] } := by
  obtain ⟨dbuf, hdbuf, hrun⟩ := execAll_decOpen_decByte h.le s
  rw [h] at hdbuf hrun
  have hclose := exec_decClose_emits (s := { s with dbuf := dbuf, dn := BitVec.ofNat 5 22, dOvf := false }) rfl rfl hdbuf
  refine ⟨dbuf, ?_⟩
  rw [decodeOps, execAll_append_next hrun, execAll_cons_next hclose]
  rfl

/-- R179 for a shorter payload: the count is not 22. -/
theorem execAll_decodeOps_short {p : List Byte} (h : p.length < 22) (s : State) :
    ∃ dbuf : Memory, execAll (decodeOps p) s = .next { s with
      dn := 0#5, dOvf := false, dbuf := dbuf
      events := s.events ++ [.err .invalidPayloadLength], crErr := s.crErr ||| 0x20#8 } := by
  obtain ⟨dbuf, -, hrun⟩ := execAll_decOpen_decByte h.le s
  have hcnt : (BitVec.ofNat 5 p.length).toNat = p.length := Nat.mod_eq_of_lt (by omega)
  refine ⟨dbuf, ?_⟩
  rw [decodeOps, execAll_append_next hrun, execAll_cons_next (exec_decClose_raises (.inl (by rw [hcnt]; omega)))]
  rfl

/-- R179 for a longer payload: the first 22 bytes are staged, the others only set DOVF. -/
theorem execAll_decodeOps_long {p : List Byte} (h : 22 < p.length) (s : State) :
    ∃ dbuf : Memory, execAll (decodeOps p) s = .next { s with
      dn := 0#5, dOvf := false, dbuf := dbuf
      events := s.events ++ [.err .invalidPayloadLength], crErr := s.crErr ||| 0x20#8 } := by
  have hlen : (p.take 22).length = 22 := by rw [List.length_take]; omega
  obtain ⟨dbuf, -, hrun⟩ := execAll_decOpen_decByte hlen.le s
  have hsplit : decodeOps p = (.decOpen :: (p.take 22).map .decByte) ++ ((p.drop 22).map .decByte ++ [.decClose]) := by
    rw [← List.append_assoc, List.cons_append, ← List.map_append, List.take_append_drop, decodeOps]
  have hfull : 22 ≤ (BitVec.ofNat 5 (p.take 22).length).toNat := by rw [hlen]; decide
  have hrest : (p.drop 22).isEmpty = false := by simpa using h
  refine ⟨dbuf, ?_⟩
  rw [hsplit, execAll_append_next hrun, execAll_append_next (execAll_decByte_full _ hfull),
    execAll_cons_next (exec_decClose_raises (.inr (by simp [hrest])))]
  rfl

/-- Settles O42: 22 bytes, fewer, and more. -/
theorem decodeSequencesReportChannelsOrRaise : Obligations.DecodeSequencesReportChannelsOrRaise := by
  refine ⟨fun s p h => ?_, fun s p h => ?_⟩
  · obtain ⟨dbuf, hrun⟩ := execAll_decodeOps_exact h s
    exact ⟨dbuf, decodeChannels p, hrun, decodeChannels_getElem h⟩
  · rcases Nat.lt_or_gt_of_ne h with hlt | hgt
    · exact execAll_decodeOps_short hlt s
    · exact execAll_decodeOps_long hgt s

/-! ## The loop over the channels (R176) -/

/-- One pass of the loop: filter `k` takes its value and its return value goes to its channel register. -/
def filterChannel (us : Vector Val 16) (t : State) (k : Fin 16) : State :=
  { (mfUpdate k us[k] t).1 with ch := t.ch.set k (mfUpdate k us[k] t).2 }

/-- The state after the passes for the channels of `ks`. -/
def filterChannels (us : Vector Val 16) (ks : List (Fin 16)) (s : State) : State :=
  { s with
    win := Vector.ofFn fun j : Fin 16 =>
      if j ∈ ks then pushWindow s.crMfwin.toNat s.win[j] us[j] else s.win[j]
    ch := Vector.ofFn fun j : Fin 16 =>
      if j ∈ ks then filterValue s.crMfwin.toNat (pushWindow s.crMfwin.toNat s.win[j] us[j]) us[j] else s.ch[j] }

theorem filterChannel_win (us : Vector Val 16) (s : State) (k j : Fin 16) :
    (filterChannel us s k).win[j] = if j = k then pushWindow s.crMfwin.toNat s.win[j] us[j] else s.win[j] := by
  show (s.win.set k _)[j] = _
  split
  next h => subst h; exact Vector.getElem_set_self j.isLt
  next h => exact Vector.getElem_set_ne k.isLt j.isLt fun heq => h (Fin.ext heq.symm)

theorem filterChannel_ch (us : Vector Val 16) (s : State) (k j : Fin 16) :
    (filterChannel us s k).ch[j] =
      if j = k then filterValue s.crMfwin.toNat (pushWindow s.crMfwin.toNat s.win[j] us[j]) us[j] else s.ch[j] := by
  show (s.ch.set k _)[j] = _
  split
  next h => subst h; exact Vector.getElem_set_self j.isLt
  next h => exact Vector.getElem_set_ne k.isLt j.isLt fun heq => h (Fin.ext heq.symm)

/-- A pass, and then those for other channels. -/
theorem filterChannels_filterChannel (us : Vector Val 16) {k : Fin 16} {ks : List (Fin 16)} (hk : k ∉ ks) (s : State) :
    filterChannels us ks (filterChannel us s k) = filterChannels us (k :: ks) s := by
  have hne {j : Fin 16} (hj : j ∈ ks) : j ≠ k := fun h => hk (h ▸ hj)
  have hwin : (filterChannels us ks (filterChannel us s k)).win = (filterChannels us (k :: ks) s).win := by
    refine congrArg Vector.ofFn (funext fun j => ?_)
    rw [filterChannel_win]
    by_cases hj : j ∈ ks
    · rw [if_pos hj, if_neg (hne hj), if_pos (List.mem_cons_of_mem k hj)]
      rfl
    · simp [hj]
  have hch : (filterChannels us ks (filterChannel us s k)).ch = (filterChannels us (k :: ks) s).ch := by
    refine congrArg Vector.ofFn (funext fun j => ?_)
    rw [filterChannel_win, filterChannel_ch]
    by_cases hj : j ∈ ks
    · rw [if_pos hj, if_neg (hne hj), if_pos (List.mem_cons_of_mem k hj)]
      rfl
    · simp [hj]
  rw [show filterChannels us ks (filterChannel us s k) = { s with
    win := (filterChannels us ks (filterChannel us s k)).win
    ch := (filterChannels us ks (filterChannel us s k)).ch } from rfl, hwin, hch]
  rfl

/-- Passes for different channels do not see each other. -/
theorem foldl_filterChannel (us : Vector Val 16) {ks : List (Fin 16)} (hks : ks.Nodup) (s : State) :
    ks.foldl (filterChannel us) s = filterChannels us ks s := by
  induction ks generalizing s with
  | nil => simp [filterChannels]
  | cons k ks ih =>
    obtain ⟨hk, hks⟩ := List.nodup_cons.1 hks
    rw [List.foldl_cons, ih hks, filterChannels_filterChannel us hk]

/-- Settles O43: the passes for all channels. -/
theorem rcStageIsTheChannelLoop : Obligations.RcStageIsTheChannelLoop := by
  intro s us
  refine Eq.trans ?_ (foldl_filterChannel us (List.nodup_finRange 16) s).symm
  simp [filterChannels, applyFilters, pushAll, filterAll]

/-! ## MF_UPD (R191, R193) -/

/-- R85: 0x8nii with `ii` not 0 is illegal. -/
theorem decode_mfUpd_imm_ne_zero (n : BitVec 4) {imm : Byte} (h : imm ≠ 0#8) :
    decode (packWord 8 n imm) = .error (.immNotZero (packWord 8 n imm)) := by
  simpa [decode] using needZeroImm_packWord_error 8 n h (.mfUpd n)

theorem exec_mfUpd (n : BitVec 4) (s : State) :
    exec (.mfUpd n) s = .next { s with
      win := s.win.set n.toFin (pushWindow s.crMfwin.toNat s.win[n.toFin] s.opr)
      events := s.events ++
        [.val16 (filterValue s.crMfwin.toNat (pushWindow s.crMfwin.toNat s.win[n.toFin] s.opr) s.opr)] } := rfl

theorem pushWindow_of_ne {w : Nat} {win : List Val} (h : win.length ≠ w) (v : Val) :
    pushWindow w win v = win ++ [v] := by
  rw [pushWindow, if_neg h]

theorem pushWindow_full {w : Nat} {oldest : Val} {rest : List Val} (h : rest.length + 1 = w) (v : Val) :
    pushWindow w (oldest :: rest) v = rest ++ [v] := by
  rw [pushWindow, if_pos (by simpa using h)]
  rfl

theorem filterValue_warmup {w : Nat} {win : List Val} (h : win.length < w) (v : Val) : filterValue w win v = v :=
  if_pos h

theorem filterValue_full {w : Nat} {win : List Val} (h : w ≤ win.length) (v : Val) : filterValue w win v = median win :=
  if_neg (not_lt.2 h)

/-- Settles O45: the words, and the push and the report while the window fills, when it has just filled, and when it was
full. -/
theorem mfUpdPushesAndReports : Obligations.MfUpdPushesAndReports := by
  refine ⟨Laws.RoundTrip.mfUpd, fun n _ h => ⟨_, decode_mfUpd_imm_ne_zero n h⟩, fun s n h => ?_, fun s n h => ?_,
    fun s n oldest rest hwin h => ?_⟩
  · rw [exec_mfUpd, pushWindow_of_ne (by omega), filterValue_warmup (by simpa using h)]
  · rw [exec_mfUpd, pushWindow_of_ne (by omega), filterValue_full (by simpa using h.ge)]
  · rw [exec_mfUpd, hwin, pushWindow_full h, filterValue_full (by simpa using h.ge)]

/-! ## Windows and bounds (R190, R195) -/

theorem mem_pushWindow {w : Nat} {win : List Val} {v x : Val} (h : x ∈ pushWindow w win v) : x ∈ win ∨ x = v := by
  unfold pushWindow at h
  split at h
  · exact (List.mem_append.1 h).imp List.mem_of_mem_drop List.mem_singleton.1
  · exact (List.mem_append.1 h).imp id List.mem_singleton.1

/-- A push behind the last `w` of the values so far leaves the last `w` of them all. -/
theorem pushWindow_drop {w : Nat} (hw : 1 ≤ w) (vs : List Val) (v : Val) :
    pushWindow w (vs.drop (vs.length - w)) v = (vs ++ [v]).drop ((vs ++ [v]).length - w) := by
  rw [List.length_append, List.length_singleton]
  rcases Nat.lt_or_ge vs.length w with hlt | hge
  · have hlen : (vs.drop (vs.length - w)).length ≠ w := by rw [List.length_drop]; omega
    rw [pushWindow_of_ne hlen, Nat.sub_eq_zero_of_le hlt.le, Nat.sub_eq_zero_of_le hlt, List.drop_zero, List.drop_zero]
  · have hlen : (vs.drop (vs.length - w)).length = w := by rw [List.length_drop]; omega
    rw [pushWindow, if_pos hlen, List.drop_drop, List.drop_append_of_le_length (by omega)]
    congr 2
    omega

theorem foldl_pushWindow {w : Nat} (hw : 1 ≤ w) (vs : List Val) :
    vs.foldl (pushWindow w) [] = vs.drop (vs.length - w) := by
  induction vs using List.reverseRecOn with
  | nil => simp
  | append_singleton vs v ih => rw [List.foldl_append, List.foldl_cons, List.foldl_nil, ih, pushWindow_drop hw]

/-- A median lies within any bounds of its window: it is a value of the window or the mean of two. -/
theorem median_bounds {win : List Val} {lo hi : Val} (hne : win ≠ []) (h : ∀ x ∈ win, lo ≤ x ∧ x ≤ hi) :
    lo ≤ median win ∧ median win ≤ hi := by
  have hpos : 0 < win.length := List.length_pos_iff.2 hne
  have hsorted {k : Nat} (hk : k < win.length) : ∃ x, (sortVals win)[k]? = some x ∧ lo ≤ x ∧ x ≤ hi := by
    have hk' : k < (sortVals win).length := by rwa [length_sortVals]
    exact ⟨_, List.getElem?_eq_getElem hk', h _ ((sortVals_perm win).mem_iff.1 (List.getElem_mem hk'))⟩
  rcases Nat.mod_two_eq_zero_or_one win.length with heven | hodd
  · obtain ⟨a, ha, halo, hahi⟩ := hsorted (k := win.length / 2 - 1) (by omega)
    obtain ⟨b, hb, hblo, hbhi⟩ := hsorted (k := win.length / 2) (by omega)
    have hmedian := median_toNat_of_even heven ha hb
    simp only [BitVec.le_def] at *
    omega
  · obtain ⟨x, hx, hbounds⟩ := hsorted (k := (win.length - 1) / 2) (by omega)
    rw [getElem?_sortVals_median hodd, Option.some.injEq] at hx
    rwa [hx]

/-- R195 d: what a filter returns lies within any bounds of its window and its input. -/
theorem filterValue_bounds (w : Nat) {win : List Val} {v lo hi : Val} (h : ∀ x ∈ win, lo ≤ x ∧ x ≤ hi) (hlo : lo ≤ v)
    (hhi : v ≤ hi) :
    lo ≤ filterValue w (pushWindow w win v) v ∧ filterValue w (pushWindow w win v) v ≤ hi := by
  unfold filterValue
  split
  · exact ⟨hlo, hhi⟩
  · refine median_bounds (by simp [pushWindow]) fun x hx => ?_
    rcases mem_pushWindow hx with hx | rfl
    · exact h x hx
    · exact ⟨hlo, hhi⟩

/-- Settles O46: the last values by induction, the bounds, and a constant input as its own bounds. -/
theorem windowAndFilterProperties : Obligations.WindowAndFilterProperties := by
  refine ⟨fun w vs hw => foldl_pushWindow hw vs, fun w win v lo hi h hlo hhi => filterValue_bounds w h hlo hhi,
    fun w win c h => ?_⟩
  obtain ⟨hlo, hhi⟩ := filterValue_bounds w (lo := c) (hi := c) (fun x hx => by rw [h x hx]; exact ⟨BitVec.le_refl c, BitVec.le_refl c⟩)
    (BitVec.le_refl c) (BitVec.le_refl c)
  exact BitVec.le_antisymm hhi hlo

end Sys2Proof.Machine
end

section
/-! PROOF. Who writes the byte stores (spec/10_state.md R30 to R32) and the flags of CR.ERR (R40, spec/60_exceptions.md
R221, R223). -/

namespace Sys2Proof.Machine

/-! ## The byte stores -/

/-- MSP_PUSH stores its byte at the count in ReadPayload. -/
theorem execMspPush_mspPay_of_readPayload {b : Byte} {s t : State} (h : execMspPush b s = .next t)
    (hst : s.mspSt = .readPayload) : t.mspPay = memWrite s.mspPay s.mspCnt.toNat b := by
  simp only [execMspPush, hst] at h
  obtain ⟨-, rfl⟩ := mspReadPayload_next h
  rfl

theorem mspSeek_mspPay (b : Byte) (s : State) : (mspSeek b s).mspPay = s.mspPay := by
  rcases mspSeek_cases b s with ⟨-, -, h⟩ | ⟨-, -, h⟩ | ⟨-, -, h⟩ | ⟨-, -, -, h⟩ <;> simp [h]

/-- In every other state it stores nothing. -/
theorem execMspPush_mspPay_of_ne {b : Byte} {s t : State} (h : execMspPush b s = .next t)
    (hst : s.mspSt ≠ .readPayload) : t.mspPay = s.mspPay := by
  obtain ⟨-, rfl⟩ | ⟨-, rfl⟩ | ⟨-, rfl⟩ | ⟨hst', -⟩ | ⟨-, hc⟩ := execMspPush_next h
  · exact mspSeek_mspPay b s
  · rfl
  · rfl
  · exact absurd hst' hst
  · obtain ⟨-, _, -, rfl⟩ | ⟨-, rfl⟩ := mspReadChecksum_next hc <;> rfl

theorem exec_txb {i : Instr} {s t : State} (h : exec i s = .next t) (hsrst : i ≠ .srst) (hi : ∀ b, i ≠ .encByte b) :
    t.txb = s.txb := by
  rw [exec_writes h]
  cases i with
  | srst => exact absurd rfl hsrst
  | encByte b => exact absurd rfl (hi b)
  | _ => rfl

theorem exec_dbuf {i : Instr} {s t : State} (h : exec i s = .next t) (hsrst : i ≠ .srst) (hi : ∀ b, i ≠ .decByte b) :
    t.dbuf = s.dbuf := by
  rw [exec_writes h]
  cases i with
  | srst => exact absurd rfl hsrst
  | decByte b => exact absurd rfl (hi b)
  | _ => rfl

theorem exec_mspPay {i : Instr} {s t : State} (h : exec i s = .next t) (hsrst : i ≠ .srst)
    (hi : ∀ b, i ≠ .mspPush b) : t.mspPay = s.mspPay := by
  rw [exec_writes h]
  cases i with
  | srst => exact absurd rfl hsrst
  | mspPush b => exact absurd rfl (hi b)
  | _ => rfl

/-- A write at the count changes the byte there and no other. -/
theorem memRead_memWrite_at {m m' : Memory} {n : Nat} {b : Byte} (h : m' = memWrite m n b) :
    memRead m' n = some b ∧ ∀ a, a ≠ n → memRead m' a = memRead m a := by
  subst h
  exact ⟨memRead_memWrite_same m n b, fun a ha => memRead_memWrite_other m b ha⟩

/-- Settles O48: one write at the count for each staging operation that has room, and the stores that are not written. -/
theorem storesChangeOnlyTheStagedByte : Obligations.StoresChangeOnlyTheStagedByte := by
  refine ⟨fun s t b h hlt => ?_, fun s t b h hfull a => ?_, fun s t b h hlt => ?_, fun s t b h hfull a => ?_,
    fun s t b h hst => memRead_memWrite_at (execMspPush_mspPay_of_readPayload h hst),
    fun s t b h hst a => congrArg (memRead · a) (execMspPush_mspPay_of_ne h hst),
    fun i s t a h hsrst => ⟨fun hi => ?_, fun hi => ?_, fun hi => ?_⟩⟩
  · cases (exec_encByte_stages hlt b).symm.trans h
    exact memRead_memWrite_at rfl
  · cases (exec_encByte_full hfull b).symm.trans h
    rfl
  · cases (exec_decByte_stages hlt b).symm.trans h
    exact memRead_memWrite_at rfl
  · cases (exec_decByte_full hfull b).symm.trans h
    rfl
  · rw [exec_txb h hsrst hi]
  · rw [exec_dbuf h hsrst hi]
  · rw [exec_mspPay h hsrst hi]

/-! ## The flags -/

/-- Flags set before are set after, and one set after that was not set before has its cause. -/
def FlagsGrow (cause : ErrFlag → Prop) (s t : State) : Prop :=
  ∀ f, (s.flag f = true → t.flag f = true) ∧ (t.flag f = true → s.flag f = true ∨ cause f)

theorem FlagsGrow.of_crErr_eq {cause : ErrFlag → Prop} {s t : State} (h : t.crErr = s.crErr) : FlagsGrow cause s t := by
  intro f
  unfold State.flag
  rw [h]
  exact ⟨id, .inl⟩

theorem flag_of_crErr_or {s t : State} {g : ErrFlag} (h : t.crErr = s.crErr ||| g.mask) (f : ErrFlag) :
    t.flag f = (s.flag f || decide (g = f)) := by
  simp [State.flag, h, ErrFlag.mask_getLsbD]

theorem FlagsGrow.of_crErr_or {cause : ErrFlag → Prop} {s t : State} {g : ErrFlag}
    (h : t.crErr = s.crErr ||| g.mask) (hg : cause g) : FlagsGrow cause s t := by
  intro f
  rw [flag_of_crErr_or h]
  by_cases hf : g = f
  · subst hf
    simp [hg]
  · simpa [hf] using Or.inl

theorem FlagsGrow.trans {cause : ErrFlag → Prop} {s t u : State} (h : FlagsGrow cause s t) (h' : FlagsGrow cause t u) :
    FlagsGrow cause s u := fun f =>
  ⟨fun hf => (h' f).1 ((h f).1 hf), fun hf => ((h' f).2 hf).elim (h f).2 .inr⟩

theorem FlagsGrow.mono {cause cause' : ErrFlag → Prop} {s t : State} (h : FlagsGrow cause s t)
    (hc : ∀ f, cause f → cause' f) : FlagsGrow cause' s t := fun f =>
  ⟨(h f).1, fun hf => ((h f).2 hf).imp id (hc f)⟩

/-- An EV_ERR stands among the events of `t` behind those of `s`. -/
def ErrEmitted (s t : State) : Prop := ∃ new, t.events = s.events ++ new ∧ ∃ e, Event.err e ∈ new

theorem ErrEmitted.of_append {s t u : State} (h : ErrEmitted s t) {new : List Event} (hu : u.events = t.events ++ new) :
    ErrEmitted s u := by
  obtain ⟨old, hold, e, he⟩ := h
  exact ⟨old ++ new, by rw [hu, hold, List.append_assoc], e, List.mem_append_left _ he⟩

theorem ErrEmitted.of_prepend {s t u : State} (h : ErrEmitted t u) {old : List Event} (ht : t.events = s.events ++ old) :
    ErrEmitted s u := by
  obtain ⟨new, hnew, e, he⟩ := h
  exact ⟨old ++ new, by rw [hnew, ht, List.append_assoc], e, List.mem_append_right _ he⟩

/-- What sets a flag (R40, R221, R223). -/
def flagCause (i : Instr) (s t : State) : ErrFlag → Prop
  | .crsfDesync | .crsfLeninv | .crsfCrcerr => ∃ b, i = .crsfPush b
  | .mspDesync | .mspCkerr => ∃ b, i = .mspPush b
  | .decerr => ErrEmitted s t
  | .illop => False
  | .trunc => i = .mspAbort

/-- An error that is not IllegalOp sets DECERR, beside its event. -/
theorem flagsGrow_raise {i : Instr} {e : ErrorCode} (he : e.flag = .decerr) {s t : State}
    (herr : t.crErr = (raise e s).crErr) (hev : t.events = (raise e s).events) :
    FlagsGrow (flagCause i s t) s t := by
  refine .of_crErr_or (g := .decerr) (by rw [herr, raise_crErr, he]) ?_
  exact ⟨[.err e], by rw [hev, raise_events], e, List.mem_singleton_self _⟩

/-- A round of the search sets one of the CRSF flags, or DECERR beside an EV_ERR, or none. -/
theorem searchRound_flags {b : Byte} {rom : Byte → Byte} {s t : State} (h : searchRound rom s = some t) :
    (∃ new, t.events = s.events ++ new) ∧ FlagsGrow (flagCause (.crsfPush b) s t) s t := by
  have hdrop (f : ErrFlag) (hf : flagCause (.crsfPush b) s (dropOne f s) f) :
      (∃ new, (dropOne f s).events = s.events ++ new) ∧
        FlagsGrow (flagCause (.crsfPush b) s (dropOne f s)) s (dropOne f s) :=
    ⟨⟨[], by simp⟩, .of_crErr_or (dropOne_crErr f s) hf⟩
  obtain ⟨a, l, rest, -, ⟨-, rfl⟩ | ⟨-, -, rfl⟩ | ⟨-, -, -, -, rfl⟩ | ⟨-, -, -, -, rfl⟩⟩ := searchRound_eq_some h
  · exact hdrop _ ⟨b, rfl⟩
  · exact hdrop _ ⟨b, rfl⟩
  · exact hdrop _ ⟨b, rfl⟩
  · rcases acceptFrame_cases l.toNat s with heq | ⟨us, -, heq⟩ | heq
    · exact ⟨⟨_, by rw [heq]⟩, .of_crErr_eq (by rw [heq])⟩
    · exact ⟨⟨_, by rw [heq]⟩, .of_crErr_eq (by rw [heq])⟩
    · refine ⟨⟨_, by rw [heq]⟩, .of_crErr_or (g := .decerr) (by rw [heq]) ?_⟩
      exact ⟨_, by rw [heq], .invalidPayloadLength, by simp⟩

theorem flagCause.of_append {i : Instr} {s t u : State} {f : ErrFlag} (h : flagCause i s t f) {new : List Event}
    (hu : u.events = t.events ++ new) : flagCause i s u f := by
  cases f with
  | decerr => exact ErrEmitted.of_append h hu
  | _ => exact h

theorem flagCause.of_prepend {i : Instr} {s t u : State} {f : ErrFlag} (h : flagCause i t u f) {old : List Event}
    (ht : t.events = s.events ++ old) : flagCause i s u f := by
  cases f with
  | decerr => exact ErrEmitted.of_prepend h ht
  | _ => exact h

/-- What every round does to the flags, the search does. -/
theorem processCrsf_flags (b : Byte) (rom : Byte → Byte) (s : State) :
    FlagsGrow (flagCause (.crsfPush b) s (processCrsf rom s)) s (processCrsf rom s) := by
  refine (processCrsf_induct (rom := rom)
    (P := fun t => (∃ new, t.events = s.events ++ new) ∧ FlagsGrow (flagCause (.crsfPush b) s t) s t)
    (fun t u htu ht => ?_) s ⟨⟨[], (List.append_nil _).symm⟩, .of_crErr_eq rfl⟩).2
  obtain ⟨⟨old, hold⟩, hflags⟩ := ht
  obtain ⟨⟨new, hnew⟩, hround⟩ := searchRound_flags (b := b) htu
  exact ⟨⟨old ++ new, by rw [hnew, hold, List.append_assoc]⟩,
    (hflags.mono fun _ h => h.of_append hnew).trans (hround.mono fun _ h => h.of_prepend hold)⟩

theorem execMspPush_flags {b : Byte} {s t : State} (h : execMspPush b s = .next t) :
    FlagsGrow (flagCause (.mspPush b) s t) s t := by
  obtain ⟨-, rfl⟩ | ⟨-, rfl⟩ | ⟨-, rfl⟩ | ⟨-, hp⟩ | ⟨-, hc⟩ := execMspPush_next h
  · rcases mspSeek_cases b s with ⟨-, -, hs⟩ | ⟨-, -, hs⟩ | ⟨-, -, hs⟩ | ⟨-, -, -, hs⟩ <;> rw [hs]
    case inr.inr.inr => exact .of_crErr_or (g := .mspDesync) rfl ⟨b, rfl⟩
    all_goals exact .of_crErr_eq rfl
  · exact .of_crErr_eq rfl
  · exact .of_crErr_eq rfl
  · obtain ⟨-, rfl⟩ := mspReadPayload_next hp
    exact .of_crErr_eq rfl
  · obtain ⟨-, _, -, rfl⟩ | ⟨-, rfl⟩ := mspReadChecksum_next hc
    · exact .of_crErr_eq rfl
    · exact .of_crErr_or (g := .mspCkerr) rfl ⟨b, rfl⟩

theorem ctrlReg_eq_err {n : BitVec 4} (h : ctrlReg n = some .err) : n = 4#4 := by
  have hall : ∀ n : BitVec 4, ctrlReg n = some .err → n = 4#4 := by decide
  exact hall n h

/-- Only register 4 clears flags. -/
theorem execWrcr_flags {n : BitVec 4} (hn : n ≠ 4#4) {v : Byte} {s t : State} (h : execWrcr n v s = .next t) :
    FlagsGrow (flagCause (.wrcr n v) s t) s t := by
  unfold execWrcr at h
  split at h
  next r hr =>
    split at h
    next u hw =>
      cases h
      obtain ⟨-, rfl⟩ | ⟨-, rfl⟩ | ⟨-, rfl⟩ | ⟨-, -, rfl⟩ | ⟨rfl, -⟩ := writeCtrl_cases hw
      case inr.inr.inr.inr => exact absurd (ctrlReg_eq_err hr) hn
      all_goals exact .of_crErr_eq rfl
    next => cases h; exact flagsGrow_raise (e := .outOfRange) rfl rfl rfl
  next => cases h; exact flagsGrow_raise (e := .outOfRange) rfl rfl rfl

/-- R40: every operation but SRST and WRCR of register 4 keeps the flags that are set, and sets others for their cause. -/
theorem exec_flags {i : Instr} {s t : State} (h : exec i s = .next t) (hsrst : i ≠ .srst)
    (hclear : ∀ v, i ≠ .wrcr 4#4 v) : FlagsGrow (flagCause i s t) s t := by
  cases i with
  | srst => exact absurd rfl hsrst
  | getch imm =>
    rcases exec_getch_cases imm s with ⟨_, h'⟩ | h' <;> cases h'.symm.trans h
    · exact .of_crErr_eq rfl
    · exact flagsGrow_raise (e := .outOfRange) rfl rfl rfl
  | wrcr n v =>
    refine execWrcr_flags (fun hn => ?_) h
    subst hn
    exact hclear v rfl
  | rdcr n =>
    rcases exec_rdcr_cases n s with ⟨_, h'⟩ | h' <;> cases h'.symm.trans h
    · exact .of_crErr_eq rfl
    · exact flagsGrow_raise (e := .outOfRange) rfl rfl rfl
  | mspPush b => exact execMspPush_flags h
  | mspAbort =>
    cases h
    by_cases hst : s.mspSt = .seekHeader
    · exact .of_crErr_eq (by rw [if_pos hst, mspDropFrame_crErr])
    · exact .of_crErr_or (g := .trunc) (by rw [if_neg hst, mspDropFrame_crErr, setFlag_crErr]) rfl
  | encClose =>
    rcases execEncClose_cases s with ⟨-, h'⟩ | ⟨-, _, -, h'⟩ | ⟨-, -, h'⟩ <;> cases h'.symm.trans h
    · exact flagsGrow_raise (e := .payloadTooLarge) rfl rfl rfl
    · exact .of_crErr_eq rfl
  | crsfPush b =>
    rcases execCrsfPush_cases b s with ⟨-, h'⟩ | ⟨-, h'⟩ <;> cases h'.symm.trans h
    exact processCrsf_flags b crcRom { s with cbuf := s.cbuf ++ [b] }
  | decClose =>
    rcases execDecClose_cases s with ⟨-, -, _, -, h'⟩ | ⟨-, -, -, h'⟩ | ⟨-, h'⟩ <;> cases h'.symm.trans h
    · exact .of_crErr_eq rfl
    · exact flagsGrow_raise (e := .invalidPayloadLength) rfl rfl rfl
  | _ => exact .of_crErr_eq (by rw [exec_writes h]; rfl)

/-- SRST clears every flag (R46). -/
theorem softReset_flag (s : State) (f : ErrFlag) : (softReset s).flag f = false := by
  simp [State.flag]

theorem exec_wrcr_err (v : Byte) (s : State) : exec (.wrcr 4#4 v) s = .next (clearFlags v s) :=
  exec_wrcr_writes (r := .err) rfl rfl

/-- Settles O8: the operation was one that clears, or else the flag would still be set. -/
theorem flagsStayUntilCleared : Obligations.FlagsStayUntilCleared := by
  intro s t f h hs ht
  rcases step_cases s with ⟨-, hstep⟩ | ⟨w, rest, i, hport, hdec, hstep⟩ | ⟨w, rest, e, -, -, hstep⟩ <;>
    rw [hstep] at h
  · cases h
    simp [hs] at ht
  · have hword : nextWord s = some (encode i) := by
      rw [nextWord, hport, eq_encode_of_decode hdec, List.head?_cons]
    by_cases hsrst : i = .srst
    · exact .inl (hsrst ▸ hword)
    · by_cases hclear : ∃ v, i = .wrcr 4#4 v
      · obtain ⟨v, rfl⟩ := hclear
        cases (exec_wrcr_err v _).symm.trans h
        have hs' : ({ s with port := rest } : State).flag f = true := hs
        rw [clearFlags_flag, hs', Bool.true_and, Bool.not_eq_false'] at ht
        exact .inr ⟨v, ht, hword⟩
      · have hkept := (exec_flags h hsrst (fun v hv => hclear ⟨v, hv⟩) f).1 hs
        simp [hkept] at ht
  · cases h
    rw [raise, setFlag_flag] at ht
    have hs' : (emit (.err .illegalOp) { s with port := rest }).flag f = true := hs
    simp [hs'] at ht

theorem ErrEmitted.mem_drop {s t : State} (h : ErrEmitted s t) : ∃ e, Event.err e ∈ t.events.drop s.events.length := by
  obtain ⟨new, hnew, e, he⟩ := h
  exact ⟨e, by rwa [hnew, List.drop_left]⟩

/-- Settles O9: the two operations that clear set nothing, and for the others the cause of the flag is the claim. -/
theorem flagsAreSetOnlyByTheirCause : Obligations.FlagsAreSetOnlyByTheirCause := by
  intro i s t f h hs ht
  have hcause : flagCause i s t f := by
    by_cases hsrst : i = .srst
    · subst hsrst
      cases h
      simp [softReset_flag] at ht
    · by_cases hclear : ∃ v, i = .wrcr 4#4 v
      · obtain ⟨v, rfl⟩ := hclear
        cases (exec_wrcr_err v s).symm.trans h
        simp [clearFlags_flag, hs] at ht
      · have hgrow := (exec_flags h hsrst (fun v hv => hclear ⟨v, hv⟩) f).2 ht
        simpa [hs] using hgrow
  cases f with
  | crsfDesync | crsfLeninv | crsfCrcerr => exact ⟨fun _ => hcause, by simp, nofun, nofun, nofun⟩
  | mspDesync | mspCkerr => exact ⟨by simp, fun _ => hcause, nofun, nofun, nofun⟩
  | decerr => exact ⟨by simp, by simp, nofun, nofun, fun _ => ErrEmitted.mem_drop hcause⟩
  | illop => exact hcause.elim
  | trunc => exact ⟨by simp, by simp, fun _ => hcause, nofun, nofun⟩

end Sys2Proof.Machine
end

section
/-! PROOF. The invariants between operations (spec/10_state.md R47): each part of them across the operations that write its
fields, the step lemma, and the run from reset (spec/70_reset_and_hazards.md R249). -/

namespace Sys2Proof.Machine

/-! ## Reset (R46) -/

/-- A state whose block is the reset block has the invariants, if its parameters are legal and its events have their
shapes. -/
theorem BlockInv.of_toBlock_reset {s : State} (hblock : s.toBlock = Block.reset s.params) (hlegal : s.params.Legal)
    (hevents : EventsInv s) : BlockInv s := by
  obtain ⟨block, params, port, events⟩ := s
  obtain rfl : block = Block.reset params := hblock
  have hwindow : 3 ≤ params.mfWMax := hlegal.1
  have hpow : 0 < 2 ^ params.ageW := Nat.two_pow_pos _
  exact {
    params := hlegal
    msp := by constructor <;> simp
    store := by constructor <;> simp
    staging := by constructor <;> simp
    window := ⟨(legalWindow_iff _ _).2 ⟨show 1 ≤ (3#8).toNat by decide, hwindow⟩, fun k => by simp⟩
    cbuf := .inl (Nat.zero_lt_two)
    age := hpow
    events := hevents }

theorem BlockInv.resetWith {p : Config.Params} (h : p.Legal) : BlockInv (State.resetWith p) :=
  .of_toBlock_reset rfl h nofun

/-- Settles O51: the reset block with the defaults, which are legal, and with any other legal parameters. -/
theorem invariantsHoldAtReset : Obligations.InvariantsHoldAtReset :=
  ⟨BlockInv.resetWith (by decide), fun _ => BlockInv.resetWith⟩

/-! ## The MSP receiver (R28, R29, R126 to R128) -/

section

variable {s : State} {p : List Byte}

/-- In SeekHeader only HDR is bounded. -/
theorem MspInv.of_seekHeader (hst : s.mspSt = .seekHeader) (hhdr : s.hdr.toNat ≤ 2) : MspInv s := by
  constructor <;> simp [hst, hhdr]

theorem MspInv.of_readLength (hst : s.mspSt = .readLength) (hhdr : s.hdr = 0#2) : MspInv s := by
  constructor <;> simp [hst, hhdr]

theorem MspInv.of_readCommand (hst : s.mspSt = .readCommand) (hhdr : s.hdr = 0#2) (hck : s.mspCk = s.mspLen) :
    MspInv s := by
  constructor <;> simp [hst, hhdr, hck]

theorem MspInv.of_readPayload (hst : s.mspSt = .readPayload) (hhdr : s.hdr = 0#2)
    (hcnt : s.mspCnt.toNat < s.mspLen.toNat) (hp : memPrefix s.mspPay s.mspCnt.toNat = some p)
    (hck : s.mspCk = mspChecksum s.mspLen s.mspCmd p) : MspInv s := by
  constructor <;> simp [hst, hhdr, hcnt, hp, hck]

theorem MspInv.of_readChecksum (hst : s.mspSt = .readChecksum) (hhdr : s.hdr = 0#2) (hcnt : s.mspCnt = s.mspLen)
    (hp : memPrefix s.mspPay s.mspCnt.toNat = some p) (hck : s.mspCk = mspChecksum s.mspLen s.mspCmd p) :
    MspInv s := by
  rw [hcnt] at hp
  constructor <;> simp [hst, hhdr, hcnt, hp, hck]

end

theorem mspSeek_mspInv {s : State} (hst : s.mspSt = .seekHeader) (b : Byte) : MspInv (mspSeek b s) := by
  rcases mspSeek_cases b s with ⟨-, -, heq⟩ | ⟨-, -, heq⟩ | ⟨-, -, heq⟩ | ⟨-, -, -, heq⟩ <;> rw [heq]
  · exact .of_seekHeader hst (show (1#2).toNat ≤ 2 by decide)
  · exact .of_seekHeader hst (show (2#2).toNat ≤ 2 by decide)
  · exact .of_readLength rfl rfl
  · have hhdr : (if b = 0x24#8 then 1#2 else 0#2).toNat ≤ 2 := by split <;> decide
    exact .of_seekHeader hst hhdr

/-- The checksum starts with length and command; with length 0 the empty payload is complete. -/
theorem MspInv.mspReadCommand {s : State} (h : MspInv s) (hst : s.mspSt = .readCommand) (b : Byte) :
    MspInv (mspReadCommand b s) := by
  have hhdr : s.hdr = 0#2 := h.hdrZero (by simp [hst])
  have hck : s.mspCk ^^^ b = mspChecksum s.mspLen b [] := by simp [h.ckLength hst, mspChecksum, xorFold]
  by_cases hlen : s.mspLen = 0#8
  · exact .of_readChecksum (if_pos hlen) hhdr hlen.symm rfl hck
  · have hpos : 0 < s.mspLen.toNat := Nat.pos_of_ne_zero fun h0 => hlen (BitVec.eq_of_toNat_eq h0)
    exact .of_readPayload (if_neg hlen) hhdr hpos rfl hck

/-- One more payload byte is counted, stored and in the checksum. -/
theorem MspInv.mspReadPayload {s t : State} (h : MspInv s) (hst : s.mspSt = .readPayload) {b : Byte}
    (ht : mspReadPayload b s = .next t) : MspInv t := by
  obtain ⟨hcnt, rfl⟩ := mspReadPayload_next ht
  have hhdr : s.hdr = 0#2 := h.hdrZero (by simp [hst])
  have hbelow := h.countBelow hst
  obtain ⟨p, hp, hck⟩ := h.payload (.inl hst)
  have hnext : (s.mspCnt + 1).toNat = s.mspCnt.toNat + 1 := by
    rw [add_one_eq_ofNat, BitVec.toNat_ofNat, Nat.mod_eq_of_lt (by omega)]
  have hpay : memPrefix (memWrite s.mspPay s.mspCnt.toNat b) (s.mspCnt + 1).toNat = some (p ++ [b]) := by
    rw [hnext]
    exact memPrefix_memWrite_push b hp
  have hsum : s.mspCk ^^^ b = mspChecksum s.mspLen s.mspCmd (p ++ [b]) := by rw [mspChecksum_push, hck]
  by_cases hlast : s.mspCnt + 1 = s.mspLen
  · exact .of_readChecksum (if_pos hlast) hhdr hlast hpay hsum
  · have hne : (s.mspCnt + 1).toNat ≠ s.mspLen.toNat := fun heq => hlast (BitVec.eq_of_toNat_eq heq)
    exact .of_readPayload (if_neg hlast) hhdr (show (s.mspCnt + 1).toNat < s.mspLen.toNat by omega) hpay hsum

theorem MspInv.execMspPush {s t : State} (h : MspInv s) {b : Byte} (ht : execMspPush b s = .next t) : MspInv t := by
  obtain ⟨hst, rfl⟩ | ⟨hst, rfl⟩ | ⟨hst, rfl⟩ | ⟨hst, hp⟩ | ⟨-, hc⟩ := execMspPush_next ht
  · exact mspSeek_mspInv hst b
  · exact .of_readCommand rfl (h.hdrZero (by simp [hst])) rfl
  · exact h.mspReadCommand hst b
  · exact h.mspReadPayload hst hp
  · obtain ⟨-, _, -, rfl⟩ | ⟨-, rfl⟩ := mspReadChecksum_next hc
    · exact .of_seekHeader rfl (show (0#2).toNat ≤ 2 by decide)
    · exact .of_seekHeader rfl (show (0#2).toNat ≤ 2 by decide)

theorem MspInv.exec {i : Instr} {s t : State} (h : MspInv s) (ht : exec i s = .next t) (hsrst : i ≠ .srst) :
    MspInv t := by
  cases i with
  | srst => exact absurd rfl hsrst
  | mspPush b => exact h.execMspPush ht
  | mspAbort => cases ht; exact .of_seekHeader (mspDropFrame_mspSt _) (by rw [mspDropFrame_hdr]; decide)
  | _ => rw [exec_writes ht]; exact h.of_eq rfl rfl rfl rfl rfl rfl rfl

/-! ## The byte stores and the staging (R30 to R32, R60) -/

/-- Each store is written by its own staging operation only, at an index below the count's limit. -/
theorem StoreInv.exec {i : Instr} {s t : State} (h : StoreInv s) (ht : exec i s = .next t) (hsrst : i ≠ .srst) :
    StoreInv t := by
  obtain ⟨hpayWf, htxbWf, hdbufWf, hpayIn, htxbIn, hdbufIn⟩ := h
  cases i with
  | srst => exact absurd rfl hsrst
  | mspPush b =>
    have hpay : t.mspPay.wf ∧ t.mspPay.within Space.mspPay.size := by
      by_cases hst : s.mspSt = .readPayload
      · have hroom : s.mspCnt.toNat < 255 := by
          simp only [Machine.exec, execMspPush, hst] at ht
          exact (mspReadPayload_next ht).1
        rw [execMspPush_mspPay_of_readPayload ht hst]
        exact ⟨memWrite_wf hpayWf _ b, memWrite_within hpayIn hroom b⟩
      · rw [execMspPush_mspPay_of_ne ht hst]
        exact ⟨hpayWf, hpayIn⟩
    have htxb : t.txb = s.txb := exec_txb ht nofun nofun
    have hdbuf : t.dbuf = s.dbuf := exec_dbuf ht nofun nofun
    exact ⟨hpay.1, htxb ▸ htxbWf, hdbuf ▸ hdbufWf, hpay.2, htxb ▸ htxbIn, hdbuf ▸ hdbufIn⟩
  | encByte b =>
    rcases execEncByte_cases b s with ⟨hlt, heq⟩ | ⟨-, heq⟩ <;> cases heq.symm.trans ht
    · exact ⟨hpayWf, memWrite_wf htxbWf _ b, hdbufWf, hpayIn, memWrite_within htxbIn hlt b, hdbufIn⟩
    · exact ⟨hpayWf, htxbWf, hdbufWf, hpayIn, htxbIn, hdbufIn⟩
  | decByte b =>
    rcases execDecByte_cases b s with ⟨hlt, heq⟩ | ⟨-, heq⟩ <;> cases heq.symm.trans ht
    · exact ⟨hpayWf, htxbWf, memWrite_wf hdbufWf _ b, hpayIn, htxbIn, memWrite_within hdbufIn hlt b⟩
    · exact ⟨hpayWf, htxbWf, hdbufWf, hpayIn, htxbIn, hdbufIn⟩
  | _ => rw [exec_writes ht]; exact ⟨hpayWf, htxbWf, hdbufWf, hpayIn, htxbIn, hdbufIn⟩

/-- A byte staged at the count leaves one byte more below the next count. -/
theorem isSome_memPrefix_push {m : Memory} {n : Nat} (h : (memPrefix m n).isSome) (b : Byte) :
    (memPrefix (memWrite m n b) (n + 1)).isSome := by
  obtain ⟨p, hp⟩ := Option.isSome_iff_exists.1 h
  rw [memPrefix_memWrite_push b hp]
  rfl

/-- R31, R132: ENC_BYTE keeps the bytes counted written, and its mark stands at the full count. -/
theorem StagingInv.encByte {s t : State} (h : StagingInv s) {b : Byte} (ht : execEncByte b s = .next t) :
    StagingInv t := by
  obtain ⟨htx, htxFull, hdn, hdec, hdecFull⟩ := h
  rcases execEncByte_cases b s with ⟨hlt, heq⟩ | ⟨hfull, heq⟩ <;> cases heq.symm.trans ht
  · have hnext : (s.txN + 1).toNat = s.txN.toNat + 1 := by bv_omega
    have hwritten : (memPrefix (memWrite s.txb s.txN.toNat b) (s.txN + 1).toNat).isSome := by
      rw [hnext]
      exact isSome_memPrefix_push htx b
    have hnoMark : s.txOvf ≠ true := fun hovf => by simp [htxFull hovf] at hlt
    exact ⟨hwritten, fun hovf => absurd hovf hnoMark, hdn, hdec, hdecFull⟩
  · exact ⟨htx, fun _ => BitVec.eq_of_toNat_eq hfull, hdn, hdec, hdecFull⟩

/-- R32, R178: the same for DEC_BYTE, which counts to 22. -/
theorem StagingInv.decByte {s t : State} (h : StagingInv s) {b : Byte} (ht : execDecByte b s = .next t) :
    StagingInv t := by
  obtain ⟨htx, htxFull, hdn, hdec, hdecFull⟩ := h
  rcases execDecByte_cases b s with ⟨hlt, heq⟩ | ⟨hfull, heq⟩ <;> cases heq.symm.trans ht
  · have hnext : (s.dn + 1).toNat = s.dn.toNat + 1 := by bv_omega
    have hwritten : (memPrefix (memWrite s.dbuf s.dn.toNat b) (s.dn + 1).toNat).isSome := by
      rw [hnext]
      exact isSome_memPrefix_push hdec b
    have hnoMark : s.dOvf ≠ true := fun hovf => by simp [hdecFull hovf] at hlt
    exact ⟨htx, htxFull, hnext.trans_le hlt, hwritten, fun hovf => absurd hovf hnoMark⟩
  · exact ⟨htx, htxFull, hdn, hdec, fun _ => BitVec.eq_of_toNat_eq (le_antisymm hdn hfull)⟩

/-- With the count at 0 and no mark the encoder's part holds; likewise the decoder's. -/
theorem StagingInv.exec {i : Instr} {s t : State} (h : StagingInv s) (ht : exec i s = .next t) (hsrst : i ≠ .srst) :
    StagingInv t := by
  cases i with
  | srst => exact absurd rfl hsrst
  | encByte b => exact h.encByte ht
  | decByte b => exact h.decByte ht
  | encOpen c => cases ht; exact ⟨rfl, nofun, h.dnRange, h.decWritten, h.decFull⟩
  | decOpen => cases ht; exact ⟨h.txWritten, h.txFull, Nat.zero_le _, rfl, nofun⟩
  | encClose =>
    rcases execEncClose_cases s with ⟨-, heq⟩ | ⟨-, _, -, heq⟩ | ⟨-, -, heq⟩ <;> cases heq.symm.trans ht
    all_goals exact ⟨rfl, nofun, h.dnRange, h.decWritten, h.decFull⟩
  | decClose =>
    rcases execDecClose_cases s with ⟨-, -, _, -, heq⟩ | ⟨-, -, -, heq⟩ | ⟨-, heq⟩ <;> cases heq.symm.trans ht
    all_goals exact ⟨h.txWritten, h.txFull, Nat.zero_le _, rfl, nofun⟩
  | _ => rw [exec_writes ht]; exact h.of_eq rfl rfl rfl rfl rfl rfl

/-! ## The windows (R39, R191) -/

theorem WindowInv.one_le {s : State} (h : WindowInv s) : 1 ≤ s.crMfwin.toNat := ((legalWindow_iff _ _).1 h.mfwin).1

theorem WindowInv.pushAll {s : State} (h : WindowInv s) (us : Vector Val 16) (k : Fin 16) :
    (pushAll s.crMfwin.toNat s.win us)[k].length ≤ s.crMfwin.toNat := by
  simpa [Machine.pushAll] using pushWindow_length_le us[k] h.one_le (h.windows k)

theorem WindowInv.mfUpd {s t : State} (h : WindowInv s) {n : BitVec 4} (ht : exec (.mfUpd n) s = .next t) :
    WindowInv t := by
  refine ⟨?_, fun k => ?_⟩
  · rw [exec_writes ht]
    exact h.mfwin
  · rw [show t.crMfwin = s.crMfwin by rw [exec_writes ht]; rfl]
    by_cases hk : k = n.toFin
    · subst hk
      cases ht
      show (s.win.set n.toFin _)[n.toFin].length ≤ _
      rw [Fin.getElem_fin, Vector.getElem_set_self]
      exact pushWindow_length_le s.opr h.one_le (h.windows n.toFin)
    · rw [exec_mfUpd_win_other ht hk]
      exact h.windows k

/-- A new window size is a legal one, and comes with empty windows. -/
theorem WindowInv.writeCtrl {r : CtrlReg} {v : Byte} {s t : State} (h : WindowInv s) (ht : writeCtrl r v s = some t) :
    WindowInv t := by
  obtain ⟨-, rfl⟩ | ⟨-, rfl⟩ | ⟨-, rfl⟩ | ⟨-, hlegal, rfl⟩ | ⟨-, rfl⟩ := writeCtrl_cases ht
  case inr.inr.inr.inl => exact ⟨hlegal, fun k => by simp⟩
  all_goals exact h.of_eq rfl rfl rfl

/-! ## The search (R101, R157, R161) -/

/-- The frame at the front of CBUF has the shape of an EV_FRAME body. -/
theorem frame_wf {s : State} {l : Byte} {rest : List Byte} (p : Config.Params) (hc : s.cbuf = s.crAddr :: l :: rest)
    (hl : 2 ≤ l.toNat) (hlen : l.toNat + 2 ≤ s.cbuf.length) :
    (Event.frame (slice s.cbuf 0 (l.toNat + 1))).Wf p := by
  have hsecond : (slice s.cbuf 0 (l.toNat + 1)).getD 1 0 = l := by
    rw [slice_zero, hc]
    simp
  refine ⟨?_, hsecond.symm ▸ hl⟩
  rw [hsecond, slice_length]
  omega

/-- What the search may change of the invariants: windows, age and events. -/
structure SearchInv (s : State) : Prop where
  window : WindowInv s
  age : AgeInv s
  events : EventsInv s

theorem SearchInv.acceptFrame {s : State} (h : SearchInv s) {l : Byte} {rest : List Byte}
    (hc : s.cbuf = s.crAddr :: l :: rest) (hl : 2 ≤ l.toNat) (hlen : l.toNat + 2 ≤ s.cbuf.length) :
    SearchInv (acceptFrame l.toNat s) := by
  have hage : 0 < 2 ^ s.params.ageW := Nat.two_pow_pos _
  have hframe := frame_wf s.params hc hl hlen
  rcases acceptFrame_cases l.toNat s with heq | ⟨us, -, heq⟩ | heq <;> rw [heq]
  · exact ⟨h.window.of_eq rfl rfl rfl, hage, h.events.append rfl rfl (by simpa using hframe)⟩
  · exact ⟨⟨h.window.mfwin, h.window.pushAll us⟩, hage,
      h.events.append rfl rfl (by simpa [Event.Wf] using hframe)⟩
  · exact ⟨h.window.of_eq rfl rfl rfl, hage, h.events.append rfl rfl (by simpa [Event.Wf] using hframe)⟩

theorem SearchInv.processCrsf {s : State} (h : SearchInv s) (rom : Byte → Byte) : SearchInv (processCrsf rom s) := by
  refine processCrsf_induct (P := SearchInv) (fun u v huv hu => ?_) s h
  have hdrop (f : ErrFlag) : SearchInv (dropOne f u) :=
    ⟨hu.window.of_eq rfl rfl rfl, hu.age.of_eq rfl rfl, hu.events.of_eq rfl rfl⟩
  obtain ⟨a, l, rest, hc, ⟨-, rfl⟩ | ⟨-, -, rfl⟩ | ⟨-, -, -, -, rfl⟩ | ⟨rfl, hv, hl, -, rfl⟩⟩ := searchRound_eq_some huv
  · exact hdrop _
  · exact hdrop _
  · exact hdrop _
  · exact hu.acceptFrame hc ((validLength_iff u l).1 hv).1 hl

theorem cbufInv_processCrsf (rom : Byte → Byte) (s : State) : CbufInv (processCrsf rom s) := by
  rcases processCrsf_waits rom s with h | ⟨l, rest, hc, -, h⟩
  · exact .inl h
  · refine .inr ?_
    rw [hc] at h ⊢
    exact h

theorem CbufInv.length_le {s : State} (h : CbufInv s) : s.cbuf.length ≤ 256 := by
  rcases h with h | h
  · omega
  · have := (s.cbuf.getD 1 0).isLt
    omega

theorem CbufInv.exec {i : Instr} {s t : State} (h : CbufInv s) (ht : exec i s = .next t) (hsrst : i ≠ .srst) :
    CbufInv t := by
  cases i with
  | srst => exact absurd rfl hsrst
  | crsfPush b =>
    cases (exec_crsfPush h.length_le b).symm.trans ht
    exact cbufInv_processCrsf crcRom _
  | _ => exact h.of_eq (exec_cbuf ht nofun nofun)

/-! ## Windows, age and events over an operation -/

theorem msp_wf (p : Config.Params) {m : Memory} {n c : Byte} {q : List Byte} (hq : memPrefix m n.toNat = some q) :
    (Event.msp Config.mspResponse n c q).Wf p :=
  ⟨rfl, memPrefix_length hq⟩

/-- An encoded request has the shape of an EV_TX body. -/
theorem tx_wf (p : Config.Params) (c : Byte) {q : List Byte} (hq : q.length ≤ 255) :
    (Event.tx (mspEncode c q)).Wf p := by
  have hlen : (BitVec.ofNat 8 q.length).toNat = q.length := Nat.mod_eq_of_lt (by omega)
  refine ⟨?_, rfl⟩
  rw [mspEncode_length, show (mspEncode c q).getD 3 0 = BitVec.ofNat 8 q.length from rfl, hlen, Nat.add_comm]

theorem EventsInv.emit {s : State} (h : EventsInv s) {e : Event} (he : e.Wf s.params) : EventsInv (emit e s) :=
  h.append rfl rfl (by simpa using he)

theorem EventsInv.execMspPush {s t : State} (h : EventsInv s) {b : Byte} (ht : execMspPush b s = .next t) :
    EventsInv t := by
  obtain ⟨-, rfl⟩ | ⟨-, rfl⟩ | ⟨-, rfl⟩ | ⟨-, hp⟩ | ⟨-, hc⟩ := execMspPush_next ht
  · rcases mspSeek_cases b s with ⟨-, -, hs⟩ | ⟨-, -, hs⟩ | ⟨-, -, hs⟩ | ⟨-, -, -, hs⟩ <;> rw [hs]
    all_goals exact h.of_eq rfl rfl
  · exact h.of_eq rfl rfl
  · exact h.of_eq rfl rfl
  · obtain ⟨-, rfl⟩ := mspReadPayload_next hp
    exact h.of_eq rfl rfl
  · obtain ⟨-, q, hq, rfl⟩ | ⟨-, rfl⟩ := mspReadChecksum_next hc
    · exact h.append rfl rfl (by simpa using msp_wf s.params hq)
    · exact h.of_eq rfl rfl

theorem EventsInv.execEncClose {s t : State} (h : EventsInv s) (ht : execEncClose s = .next t) : EventsInv t := by
  rcases execEncClose_cases s with ⟨-, heq⟩ | ⟨-, q, hq, heq⟩ | ⟨-, -, heq⟩ <;> cases heq.symm.trans ht
  · exact (h.raise .payloadTooLarge).of_eq rfl rfl
  · have hlen : q.length ≤ 255 := by
      rw [memPrefix_length hq]
      have := s.txN.isLt
      omega
    exact (h.emit (tx_wf s.params s.txCmd hlen)).of_eq rfl rfl

theorem EventsInv.execDecClose {s t : State} (h : EventsInv s) (ht : execDecClose s = .next t) : EventsInv t := by
  rcases execDecClose_cases s with ⟨-, -, q, -, heq⟩ | ⟨-, -, -, heq⟩ | ⟨-, heq⟩ <;> cases heq.symm.trans ht
  · exact (h.emit (e := .dec (decodeChannels q)) trivial).of_eq rfl rfl
  · exact (h.raise .invalidPayloadLength).of_eq rfl rfl

theorem writeCtrl_events {r : CtrlReg} {v : Byte} {s t : State} (h : writeCtrl r v s = some t) :
    t.events = s.events ∧ t.params = s.params := by
  obtain ⟨-, rfl⟩ | ⟨-, rfl⟩ | ⟨-, rfl⟩ | ⟨-, -, rfl⟩ | ⟨-, rfl⟩ := writeCtrl_cases h
  all_goals exact ⟨rfl, rfl⟩

/-- CRSF_PUSH runs the search, from a state with the same windows, age and events. -/
theorem SearchInv.crsfPush {s t : State} (h : SearchInv s) {b : Byte} (ht : exec (.crsfPush b) s = .next t) :
    SearchInv t := by
  have ht' : execCrsfPush b s = .next t := ht
  rcases execCrsfPush_cases b s with ⟨-, heq⟩ | ⟨-, heq⟩ <;> cases heq.symm.trans ht'
  obtain ⟨hw, ha, he⟩ := h
  exact SearchInv.processCrsf (s := { s with cbuf := s.cbuf ++ [b] })
    ⟨hw.of_eq rfl rfl rfl, ha.of_eq rfl rfl, he.of_eq rfl rfl⟩ crcRom

theorem WindowInv.exec {i : Instr} {s t : State} (h : WindowInv s) (ht : exec i s = .next t) (hsrst : i ≠ .srst)
    (hpush : ∀ b, i ≠ .crsfPush b) : WindowInv t := by
  cases i with
  | srst => exact absurd rfl hsrst
  | crsfPush b => exact absurd rfl (hpush b)
  | wrcr n v =>
    rcases exec_wrcr_cases n v s with ⟨_, _, hw, heq⟩ | heq <;> cases heq.symm.trans ht
    · exact h.writeCtrl hw
    · exact h.of_eq rfl rfl rfl
  | mfUpd n => exact h.mfUpd ht
  | _ => rw [exec_writes ht]; exact h.of_eq rfl rfl rfl

theorem AgeInv.exec {i : Instr} {s t : State} (h : AgeInv s) (ht : exec i s = .next t) (hsrst : i ≠ .srst)
    (hpush : ∀ b, i ≠ .crsfPush b) : AgeInv t := by
  cases i with
  | srst => exact absurd rfl hsrst
  | crsfPush b => exact absurd rfl (hpush b)
  | tick => cases ht; exact ageAfterTick_lt h
  | _ => rw [exec_writes ht]; exact h.of_eq rfl rfl

/-- Every event has its shape when it is emitted; that of EV_AGE needs the age within its bits. -/
theorem EventsInv.exec {i : Instr} {s t : State} (h : EventsInv s) (hage : AgeInv s) (ht : exec i s = .next t)
    (hpush : ∀ b, i ≠ .crsfPush b) : EventsInv t := by
  cases i with
  | crsfPush b => exact absurd rfl (hpush b)
  | getage => cases ht; exact h.emit hage
  | xorRd | xorChk | crcRd => cases ht; exact h.emit trivial
  | mfUpd n => cases ht; exact h.append rfl rfl (by simp [Event.Wf])
  | getch imm =>
    rcases exec_getch_cases imm s with ⟨_, heq⟩ | heq <;> cases heq.symm.trans ht
    · exact h.emit trivial
    · exact h.raise .outOfRange
  | wrcr n v =>
    rcases exec_wrcr_cases n v s with ⟨_, _, hw, heq⟩ | heq <;> cases heq.symm.trans ht
    · exact h.of_eq (writeCtrl_events hw).2 (writeCtrl_events hw).1
    · exact h.raise .outOfRange
  | rdcr n =>
    rcases exec_rdcr_cases n s with ⟨_, heq⟩ | heq <;> cases heq.symm.trans ht
    · exact h.emit trivial
    · exact h.raise .outOfRange
  | mspPush b => exact h.execMspPush ht
  | encClose => exact h.execEncClose ht
  | decClose => exact h.execDecClose ht
  | _ => rw [exec_writes ht]; exact h.of_eq rfl rfl

theorem SearchInv.exec {i : Instr} {s t : State} (h : SearchInv s) (ht : exec i s = .next t) (hsrst : i ≠ .srst) :
    SearchInv t := by
  by_cases hpush : ∃ b, i = .crsfPush b
  · obtain ⟨b, rfl⟩ := hpush
    exact h.crsfPush ht
  · have hne (b : Byte) : i ≠ .crsfPush b := fun hb => hpush ⟨b, hb⟩
    exact ⟨h.window.exec ht hsrst hne, h.age.exec ht hsrst hne, h.events.exec h.age ht hne⟩

/-! ## A step, and a run (R47, R249) -/

/-- Every operation that goes on keeps the invariants. -/
theorem BlockInv.exec {i : Instr} {s t : State} (h : BlockInv s) (ht : exec i s = .next t) : BlockInv t := by
  by_cases hsrst : i = .srst
  · subst hsrst
    cases ht
    exact .of_toBlock_reset rfl h.params (h.events.of_eq rfl rfl)
  · have hsearch : SearchInv t := SearchInv.exec ⟨h.window, h.age, h.events⟩ ht hsrst
    exact {
      params := exec_params ht ▸ h.params
      msp := h.msp.exec ht hsrst
      store := h.store.exec ht hsrst
      staging := h.staging.exec ht hsrst
      window := hsearch.window
      cbuf := h.cbuf.exec ht hsrst
      age := hsearch.age
      events := hsearch.events }

/-- Which words wait is no part of the invariants. -/
theorem BlockInv.of_port {s : State} (h : BlockInv s) (port : List CmdWord) :
    BlockInv { s with port := port } where
  params := h.params
  msp := h.msp.of_eq rfl rfl rfl rfl rfl rfl rfl
  store := h.store.of_eq rfl rfl rfl
  staging := h.staging.of_eq rfl rfl rfl rfl rfl rfl
  window := h.window.of_eq rfl rfl rfl
  cbuf := h.cbuf.of_eq rfl
  age := h.age.of_eq rfl rfl
  events := h.events.of_eq rfl rfl

/-- Settles O52: each part of the invariants over each operation that writes its fields. -/
theorem invariantsAreKeptByEveryStep : Obligations.InvariantsAreKeptByEveryStep := by
  intro s t h ht
  rcases step_cases s with ⟨-, heq⟩ | ⟨w, rest, i, -, -, heq⟩ | ⟨w, rest, e, -, -, heq⟩ <;> rw [heq] at ht
  · cases ht
    exact h
  · exact (h.of_port rest).exec ht
  · cases ht
    exact (h.of_port rest).raise .illegalOp

/-- The invariants rule out each of the six stops. -/
theorem BlockInv.exec_goes_on {s : State} (h : BlockInv s) (i : Instr) : ∃ t, Machine.exec i s = .next t := by
  cases hexec : Machine.exec i s with
  | next t => exact ⟨t, rfl⟩
  | refused r => exact absurd hexec (exec_ne_refused i s r)
  | fault f =>
    obtain ⟨-, hst, -⟩ | ⟨-, hst, hcnt, -⟩ | ⟨-, hst, hnone, -⟩ | ⟨-, -, hnone, -⟩ | ⟨-, hdn, -, hnone, -⟩ |
      ⟨-, hlen, -⟩ := (stopsAreExactlyThoseNamed.1 i s f).1 hexec
    · exact absurd hst h.msp.notDone
    · have hbelow := h.msp.countBelow hst
      have hmax := s.mspLen.isLt
      rw [hcnt] at hbelow
      exact absurd hbelow (by simp; omega)
    · obtain ⟨p, hp, -⟩ := h.msp.payload (.inr hst)
      simp [h.msp.countFull hst, hnone] at hp
    · have hwritten := h.staging.txWritten
      simp [hnone] at hwritten
    · have hwritten := h.staging.decWritten
      rw [hdn] at hwritten
      simp [hnone] at hwritten
    · have hmax := h.cbuf.length_le
      omega

/-- A step from a state with the invariants goes on, and takes the next word if one waits. -/
theorem BlockInv.step_goes_on {s : State} (h : BlockInv s) : ∃ t, step s = .next t ∧ t.port = s.port.tail := by
  rcases step_cases s with ⟨hport, heq⟩ | ⟨w, rest, i, hport, -, heq⟩ | ⟨w, rest, e, hport, -, heq⟩ <;>
    rw [heq, hport]
  · exact ⟨s, rfl, hport⟩
  · obtain ⟨t, ht⟩ := (h.of_port rest).exec_goes_on i
    exact ⟨t, ht, exec_port ht⟩
  · exact ⟨_, rfl, rfl⟩

/-- Settles O53: no stop is one of a state with the invariants. -/
theorem everyStepGoesOn : Obligations.EveryStepGoesOn := fun _ h =>
  let ⟨t, ht, _⟩ := h.step_goes_on
  ⟨t, ht⟩

theorem run_succ {s u : State} (h : step s = .next u) (n : Nat) :
    Sys2Proof.core.run (n + 1) s = Sys2Proof.core.run n u := by
  have hcore : Sys2Proof.core.step s = .next u := h
  simp only [Host.Core.run, hcore]

/-- As many steps as words wait take them all. -/
theorem BlockInv.run {s : State} (h : BlockInv s) {n : Nat} (hn : s.port.length = n) :
    ∃ t : State, Sys2Proof.core.run n s = .next t ∧ t.port = [] ∧ BlockInv t := by
  induction n generalizing s with
  | zero => exact ⟨s, rfl, List.length_eq_zero_iff.1 hn, h⟩
  | succ n ih =>
    obtain ⟨u, hu, hport⟩ := h.step_goes_on
    obtain ⟨t, ht, hrest⟩ := ih (invariantsAreKeptByEveryStep s u h hu) (by rw [hport, List.length_tail, hn]; rfl)
    exact ⟨t, (run_succ hu n).trans ht, hrest⟩

/-- Settles O54: the steps go on one after another from the reset state, which has the invariants. -/
theorem everyRunFromResetCompletes : Obligations.EveryRunFromResetCompletes := by
  intro p ws hp
  obtain ⟨t, ht, hport, hinv⟩ := ((BlockInv.resetWith hp).of_port ws).run (n := ws.length) rfl
  refine ⟨t, ht, hport, hinv, ?_⟩
  rw [runBlock, ht]

end Sys2Proof.Machine
end

section
/-! PROOF. The decoder's range in channel registers and windows (spec/10_state.md R47, spec/44_channel_decoder.md R175), and
the cutting of the event stream (spec/30_encoding.md R100). -/

namespace Sys2Proof.Machine

/-! ## The range (R175, R247) -/

theorem inRange_iff (v : Val) : InRange v ↔ 988#16 ≤ v ∧ v ≤ 2044#16 := Iff.rfl

theorem inRange_decodeChannels (q : List Byte) (k : Fin 16) : InRange (decodeChannels q)[k] := by
  simpa [decodeChannels] using inRange_mapUs _

/-- A push of a value in range keeps a window in range. -/
theorem inRange_pushWindow {w : Nat} {win : List Val} {v : Val} (hwin : ∀ x ∈ win, InRange x) (hv : InRange v) :
    ∀ x ∈ pushWindow w win v, InRange x := fun x hx =>
  (mem_pushWindow hx).elim (hwin x) fun h => h ▸ hv

/-- A filter's result is in range with its window and its input. -/
theorem inRange_filterValue (w : Nat) {win : List Val} {v : Val} (hwin : ∀ x ∈ win, InRange x) (hv : InRange v) :
    InRange (filterValue w (pushWindow w win v) v) :=
  filterValue_bounds w (fun x hx => (inRange_iff x).1 (hwin x hx)) hv.1 hv.2

theorem RangeInv.resetWith (p : Config.Params) : RangeInv (State.resetWith p) :=
  ⟨fun k => by simp [InRange], fun k => by simp⟩

theorem RangeInv.filters {s t : State} (h : RangeInv s) {us : Vector Val 16} (hus : ∀ k : Fin 16, InRange us[k])
    (hwin : t.win = pushAll s.crMfwin.toNat s.win us)
    (hch : t.ch = filterAll s.crMfwin.toNat (pushAll s.crMfwin.toNat s.win us) us) : RangeInv t := by
  refine ⟨fun k => ?_, fun k => ?_⟩
  · rw [hch]
    simpa [filterAll, pushAll] using inRange_filterValue s.crMfwin.toNat (h.win k) (hus k)
  · rw [hwin]
    simpa [pushAll] using inRange_pushWindow (w := s.crMfwin.toNat) (h.win k) (hus k)

theorem RangeInv.acceptFrame {s : State} (h : RangeInv s) (l : Nat) : RangeInv (acceptFrame l s) := by
  rcases acceptFrame_cases l s with heq | ⟨us, hus, heq⟩ | heq <;> rw [heq]
  · exact h.of_eq rfl rfl
  · subst hus
    exact h.filters (inRange_decodeChannels _) rfl rfl
  · exact h.of_eq rfl rfl

theorem RangeInv.processCrsf {s : State} (h : RangeInv s) (rom : Byte → Byte) : RangeInv (processCrsf rom s) := by
  refine processCrsf_induct (P := RangeInv) (fun u v huv hu => ?_) s h
  have hdrop (f : ErrFlag) : RangeInv (dropOne f u) := hu.of_eq rfl rfl
  obtain ⟨a, l, rest, -, ⟨-, rfl⟩ | ⟨-, -, rfl⟩ | ⟨-, -, -, -, rfl⟩ | ⟨-, -, -, -, rfl⟩⟩ := searchRound_eq_some huv
  · exact hdrop _
  · exact hdrop _
  · exact hdrop _
  · exact hu.acceptFrame l.toNat

theorem RangeInv.writeCtrl {r : CtrlReg} {v : Byte} {s t : State} (h : RangeInv s) (ht : writeCtrl r v s = some t) :
    RangeInv t := by
  obtain ⟨-, rfl⟩ | ⟨-, rfl⟩ | ⟨-, rfl⟩ | ⟨-, -, rfl⟩ | ⟨-, rfl⟩ := writeCtrl_cases ht
  case inr.inr.inr.inl => exact ⟨h.ch, fun k => by simp⟩
  all_goals exact h.of_eq rfl rfl

theorem RangeInv.mfUpd {s t : State} (h : RangeInv s) (hopr : InRange s.opr) {n : BitVec 4}
    (ht : exec (.mfUpd n) s = .next t) : RangeInv t := by
  refine ⟨fun k => by rw [exec_mfUpd_ch ht]; exact h.ch k, fun k => ?_⟩
  by_cases hk : k = n.toFin
  · subst hk
    cases ht
    show ∀ v ∈ (s.win.set n.toFin _)[n.toFin], InRange v
    rw [Fin.getElem_fin, Vector.getElem_set_self]
    exact inRange_pushWindow (h.win n.toFin) hopr
  · rw [exec_mfUpd_win_other ht hk]
    exact h.win k

theorem RangeInv.exec {i : Instr} {s t : State} (h : RangeInv s) (ht : exec i s = .next t)
    (hopr : (∃ n, i = .mfUpd n) → InRange s.opr) : RangeInv t := by
  cases i with
  | srst => cases ht; exact (RangeInv.resetWith s.params).of_eq rfl rfl
  | wrcr n v =>
    rcases exec_wrcr_cases n v s with ⟨_, _, hw, heq⟩ | heq <;> cases heq.symm.trans ht
    · exact h.writeCtrl hw
    · exact h.raise .outOfRange
  | crsfPush b =>
    have ht' : execCrsfPush b s = .next t := ht
    rcases execCrsfPush_cases b s with ⟨-, heq⟩ | ⟨-, heq⟩ <;> cases heq.symm.trans ht'
    exact RangeInv.processCrsf (s := { s with cbuf := s.cbuf ++ [b] }) (h.of_eq rfl rfl) crcRom
  | mfUpd n => exact h.mfUpd (hopr ⟨n, rfl⟩) ht
  | _ => rw [exec_writes ht]; exact h.of_eq rfl rfl

/-- Settles O47: the operations that write channels or windows; MF_UPD takes its value from OPR. -/
theorem decodedRangeIsKept : Obligations.DecodedRangeIsKept := by
  refine ⟨RangeInv.resetWith, fun s t h ht hopr => ?_⟩
  rcases step_cases s with ⟨-, heq⟩ | ⟨w, rest, i, hport, hdec, heq⟩ | ⟨w, rest, e, -, -, heq⟩ <;> rw [heq] at ht
  · cases ht
    exact h
  · have hrange : RangeInv { s with port := rest } := h.of_eq rfl rfl
    refine hrange.exec ht fun ⟨n, hn⟩ => hopr ⟨n, ?_⟩
    rw [nextWord, hport, eq_encode_of_decode hdec, hn, List.head?_cons]
  · cases ht
    exact RangeInv.raise (s := { s with port := rest }) (h.of_eq rfl rfl) .illegalOp

/-! ## The event stream (R100) -/

/-- Sixteen values of two bytes. -/
theorem length_flatMap_leBytes (values : Vector Val 16) : (values.toList.flatMap fun v => leBytes v 2).length = 32 := by
  simp [List.length_flatMap]

theorem Event.length_bytes (p : Config.Params) (e : Event) : (e.bytes p).length = 1 + (e.body p).length := by
  simp [Event.bytes, Nat.add_comm]

/-- A byte that an event has is found at its place whatever comes behind the event. -/
theorem getD_append_of_lt {l : List Byte} {n : Nat} (h : n < l.length) (rest : List Byte) :
    (l ++ rest).getD n 0 = l.getD n 0 := List.getD_append _ _ _ _ h

/-- The size found at the front of a stream is that of the event there. -/
theorem eventSize_bytes {p : Config.Params} {e : Event} (h : e.Wf p) (rest : List Byte) :
    eventSize p (e.bytes p ++ rest) = some (e.bytes p).length := by
  rw [Event.length_bytes]
  show eventSize p (e.tag :: (e.body p ++ rest)) = _
  cases e with
  | frame bytes =>
    obtain ⟨hlen, hlow⟩ := h
    show some (1 + (((bytes ++ rest).getD 1 0).toNat + 2)) = some (1 + bytes.length)
    rw [getD_append_of_lt (by omega), hlen]
  | msp direction length command payload =>
    show some (1 + (3 + length.toNat)) = some (1 + (direction :: length :: command :: payload).length)
    rw [← h.2]
    simp only [List.length_cons]
    congr 2
    omega
  | tx bytes =>
    obtain ⟨hlen, -⟩ := h
    show some (1 + (6 + ((bytes ++ rest).getD 3 0).toNat)) = some (1 + bytes.length)
    rw [getD_append_of_lt (by omega), hlen, Nat.add_comm 6]
  | chan values | dec values =>
    show some 33 = some (1 + (values.toList.flatMap fun v => leBytes v 2).length)
    rw [length_flatMap_leBytes]
  | age value =>
    show some (1 + p.ageW / 8) = some (1 + (leBytes _ (p.ageW / 8)).length)
    rw [length_leBytes]
  | val8 | val16 | err => rfl

/-- The reader cuts off the event at the front. -/
theorem splitEvents_bytes {p : Config.Params} {e : Event} (h : e.Wf p) (n : Nat) (rest : List Byte) :
    splitEvents p (n + 1) (e.bytes p ++ rest) = (splitEvents p n rest).map (e.bytes p :: ·) := by
  have hsize := eventSize_bytes h rest
  have hcons : e.bytes p ++ rest = e.tag :: (e.body p ++ rest) := rfl
  have hfits : ¬ (e.bytes p ++ rest).length < (e.bytes p).length := by simp
  rw [hcons] at hsize hfits ⊢
  simp only [splitEvents, hsize, if_neg hfits]
  rw [← hcons, List.drop_left, List.take_left]

theorem splitEvents_flatMap {p : Config.Params} {events : List Event} (h : ∀ e ∈ events, e.Wf p) :
    splitEvents p events.length (events.flatMap (Event.bytes p)) = some (events.map (Event.bytes p)) := by
  induction events with
  | nil => rfl
  | cons e events ih =>
    rw [List.flatMap_cons, List.length_cons, splitEvents_bytes (h e List.mem_cons_self),
      ih fun e' he' => h e' (List.mem_cons_of_mem e he')]
    rfl

/-- Settles O11: one event after the other, each cut at the size it announces. -/
theorem eventStreamIsSelfDelimiting : Obligations.EventStreamIsSelfDelimiting := fun _ h => splitEvents_flatMap h

end Sys2Proof.Machine
end

section
/-! PROOF. Byte sequences pushed into the MSP receiver (spec/41_msp_framer.md R123 to R128, R135): HDR remembers how much of
the header the bytes so far end in, and an encoded request in response form is received as it was sent. -/

namespace Sys2Proof.Machine

theorem mspSend_append (a b : List Byte) : mspSend (a ++ b) = mspSend a ++ mspSend b := List.map_append

/-! ## Header matching (R123) -/

/-- A sequence ends in three given bytes exactly when its last byte is the third and the rest ends in the first two. -/
theorem suffix_concat_iff (q bytes : List Byte) (x b : Byte) : q ++ [x] <:+ bytes ++ [b] ↔ x = b ∧ q <:+ bytes := by
  constructor
  · rintro ⟨front, h⟩
    rw [← List.append_assoc] at h
    obtain ⟨hrest, hlast⟩ := List.append_inj' h rfl
    exact ⟨by simpa using hlast, front, hrest⟩
  · rintro ⟨rfl, front, rfl⟩
    exact ⟨front, by simp⟩

/-- What HDR stands for: how much of 24 4D 3E the bytes pushed so far end in. -/
structure HdrMatches (hdr : BitVec 2) (bytes : List Byte) : Prop where
  one : hdr = 1#2 ↔ [0x24#8] <:+ bytes
  two : hdr = 2#2 ↔ [0x24#8, 0x4D#8] <:+ bytes
  range : hdr = 0#2 ∨ hdr = 1#2 ∨ hdr = 2#2

/-- One more byte, from SeekHeader. -/
theorem mspSeek_matches {s : State} (hst : s.mspSt = .seekHeader) {bytes : List Byte} (h : HdrMatches s.hdr bytes)
    (b : Byte) :
    ((mspSeek b s).mspSt = .readLength ∧ [0x24#8, 0x4D#8, 0x3E#8] <:+ bytes ++ [b]) ∨
      ((mspSeek b s).mspSt = .seekHeader ∧ HdrMatches (mspSeek b s).hdr (bytes ++ [b]) ∧
        ¬ [0x24#8, 0x4D#8, 0x3E#8] <:+ bytes ++ [b]) := by
  have hone : [0x24#8] <:+ bytes ++ [b] ↔ 0x24#8 = b := by
    exact (suffix_concat_iff [] bytes 0x24#8 b).trans (and_iff_left (List.nil_suffix))
  have htwo : [0x24#8, 0x4D#8] <:+ bytes ++ [b] ↔ 0x4D#8 = b ∧ s.hdr = 1#2 := by
    rw [h.one]
    exact suffix_concat_iff [0x24#8] bytes 0x4D#8 b
  have hthree : [0x24#8, 0x4D#8, 0x3E#8] <:+ bytes ++ [b] ↔ 0x3E#8 = b ∧ s.hdr = 2#2 := by
    rw [h.two]
    exact suffix_concat_iff [0x24#8, 0x4D#8] bytes 0x3E#8 b
  rcases mspSeek_cases b s with ⟨hhdr, rfl, heq⟩ | ⟨hhdr, rfl, heq⟩ | ⟨hhdr, rfl, heq⟩ | ⟨h0, h1, h2, heq⟩ <;> rw [heq]
  · refine .inr ⟨hst, ⟨?_, ?_, ?_⟩, ?_⟩ <;> simp [hone, htwo, hthree, hhdr]
  · refine .inr ⟨hst, ⟨?_, ?_, ?_⟩, ?_⟩ <;> simp [hone, htwo, hthree, hhdr]
  · exact .inl ⟨rfl, hthree.2 ⟨rfl, hhdr⟩⟩
  · have hnotM : ¬ (0x4D#8 = b ∧ s.hdr = 1#2) := fun ⟨hb, hhdr⟩ => h1 ⟨hhdr, hb.symm⟩
    have hnotResponse : ¬ (0x3E#8 = b ∧ s.hdr = 2#2) := fun ⟨hb, hhdr⟩ => h2 ⟨hhdr, hb.symm⟩
    refine .inr ⟨hst, ?_, mt hthree.1 hnotResponse⟩
    rw [setFlag_hdr]
    by_cases hb : b = 0x24#8
    · subst hb
      constructor <;> simp [hone, htwo]
    · rw [if_neg hb]
      constructor <;> simp [hone, htwo, hnotM, Ne.symm hb]

/-- Over bytes that match no header before their end: either the header is matched now, or HDR tells what they end in. -/
theorem execAll_mspSend_matches {s : State} (hst : s.mspSt = .seekHeader) (hhdr : s.hdr = 0#2) (bytes : List Byte)
    (hfirst : ∀ pre, pre <+: bytes → pre ≠ bytes → ¬ [0x24#8, 0x4D#8, 0x3E#8] <:+ pre) :
    ∃ t, execAll (mspSend bytes) s = .next t ∧
      ((t.mspSt = .readLength ∧ [0x24#8, 0x4D#8, 0x3E#8] <:+ bytes) ∨
        (t.mspSt = .seekHeader ∧ HdrMatches t.hdr bytes ∧ ¬ [0x24#8, 0x4D#8, 0x3E#8] <:+ bytes)) := by
  induction bytes using List.reverseRecOn with
  | nil =>
    refine ⟨s, rfl, .inr ⟨hst, ?_, by simp⟩⟩
    constructor <;> simp [hhdr]
  | append_singleton bytes b ih =>
    have hproper {pre : List Byte} (hpre : pre <+: bytes) : ¬ [0x24#8, 0x4D#8, 0x3E#8] <:+ pre := by
      refine hfirst pre (hpre.trans (List.prefix_append _ _)) fun heq => ?_
      have hlen := hpre.length_le
      rw [heq, List.length_append, List.length_singleton] at hlen
      omega
    obtain ⟨t, hrun, ⟨-, hmatched⟩ | ⟨hseek, hmatches, -⟩⟩ := ih fun pre hpre _ => hproper hpre
    · exact absurd hmatched (hproper (List.prefix_refl _))
    · refine ⟨mspSeek b t, ?_, mspSeek_matches hseek hmatches b⟩
      rw [mspSend_append, execAll_append_next hrun]
      exact execAll_cons_next (exec_mspPush_seekHeader hseek b) []

/-- Settles O27: the receiver's state tells which of the two cases it is. -/
theorem headerIsMatchedExactlyByItsThreeBytes : Obligations.HeaderIsMatchedExactlyByItsThreeBytes := by
  intro s bytes hst hhdr hfirst
  obtain ⟨t, hrun, ⟨hlength, hsuffix⟩ | ⟨hseek, -, hsuffix⟩⟩ := execAll_mspSend_matches hst hhdr bytes hfirst
  · exact ⟨t, hrun, by simp [hlength, hsuffix], by simp [hlength, hsuffix]⟩
  · exact ⟨t, hrun, by simp [hseek, hsuffix], by simp [hseek, hsuffix]⟩

/-! ## A frame (R124 to R128, R135) -/

/-- The receiver takes the payload bytes still to come: they are stored behind those it has, and the checksum goes on. -/
theorem execAll_mspSend_payload (p : List Byte) {q : List Byte} {s : State}
    (hst : s.mspSt = if s.mspCnt.toNat = s.mspLen.toNat then .readChecksum else .readPayload)
    (hq : memPrefix s.mspPay s.mspCnt.toNat = some q) (hlen : s.mspCnt.toNat + p.length = s.mspLen.toNat) :
    ∃ pay : Memory, memPrefix pay (s.mspCnt.toNat + p.length) = some (q ++ p) ∧
      execAll (mspSend p) s = .next { s with
        mspSt := .readChecksum, mspPay := pay, mspCk := s.mspCk ^^^ xorFold p
        mspCnt := BitVec.ofNat 8 (s.mspCnt.toNat + p.length) } := by
  induction p generalizing q s with
  | nil =>
    rw [if_pos (by simpa using hlen)] at hst
    refine ⟨s.mspPay, by simpa using hq, ?_⟩
    simp [mspSend, execAll, ← hst]
  | cons b p ih =>
    have hbound := s.mspLen.isLt
    rw [List.length_cons] at hlen
    rw [if_neg (by omega)] at hst
    have hcnt : (BitVec.ofNat 8 (s.mspCnt.toNat + 1)).toNat = s.mspCnt.toNat + 1 := Nat.mod_eq_of_lt (by omega)
    have hrest : (BitVec.ofNat 8 (s.mspCnt.toNat + 1)).toNat + p.length = s.mspLen.toNat := by omega
    have hpush := exec_mspPush_readPayload hst (by omega) b
    obtain ⟨pay, hpay, hrun⟩ := ih (q := q ++ [b])
      (s := { s with
        mspPay := memWrite s.mspPay s.mspCnt.toNat b
        mspCk := s.mspCk ^^^ b
        mspCnt := BitVec.ofNat 8 (s.mspCnt.toNat + 1)
        mspSt := if s.mspCnt.toNat + 1 = s.mspLen.toNat then .readChecksum else .readPayload })
      (by rw [hcnt]) (by rw [hcnt]; exact memPrefix_memWrite_push b hq) hrest
    rw [hcnt, Nat.add_assoc, Nat.add_comm 1] at hpay hrun
    refine ⟨pay, by simpa using hpay, ?_⟩
    rw [mspSend, List.map_cons, execAll_cons_next hpush, ← mspSend, hrun, xorFold_cons, BitVec.xor_assoc]
    rfl

/-- Header, length and command: the receiver waits for the payload, or for the checksum if there is none. -/
theorem execAll_mspSend_start {s : State} (hst : s.mspSt = .seekHeader) (hhdr : s.hdr = 0#2) (n c : Byte) :
    execAll (mspSend [0x24#8, 0x4D#8, 0x3E#8, n, c]) s = .next { s with
      mspSt := if n = 0#8 then .readChecksum else .readPayload
      mspLen := n, mspCmd := c, mspCnt := 0#8, mspCk := n ^^^ c } := by
  have hdollar : exec (.mspPush 0x24#8) s = .next { s with hdr := 1#2 } := by
    rw [exec_mspPush_seekHeader hst, mspSeek_dollar hhdr]
  have hm : exec (.mspPush 0x4D#8) { s with hdr := 1#2 } = .next { s with hdr := 2#2 } := by
    rw [exec_mspPush_seekHeader (s := { s with hdr := 1#2 }) hst, mspSeek_m rfl]
  have hresponse : exec (.mspPush 0x3E#8) { s with hdr := 2#2 } = .next { s with mspSt := .readLength } := by
    rw [exec_mspPush_seekHeader (s := { s with hdr := 2#2 }) hst, mspSeek_response rfl, ← hhdr]
  rw [mspSend, List.map_cons, execAll_cons_next hdollar, List.map_cons, execAll_cons_next hm, List.map_cons,
    execAll_cons_next hresponse, List.map_cons, execAll_cons_next (exec_mspPush_readLength rfl n), List.map_cons,
    execAll_cons_next (exec_mspPush_readCommand rfl c)]
  rfl

/-- The length byte is 0 exactly for the empty payload. -/
theorem ofNat_length_eq_zero_iff (p : List Byte) :
    BitVec.ofNat 8 p.length = 0#8 ↔ 0 = (BitVec.ofNat 8 p.length).toNat := by
  rw [← BitVec.toNat_inj, eq_comm]
  rfl

/-- An encoded request in response form: start, payload, checksum. -/
theorem asResponse_mspEncode (c : Byte) (p : List Byte) :
    asResponse (mspEncode c p) =
      [0x24#8, 0x4D#8, 0x3E#8, BitVec.ofNat 8 p.length, c] ++ p ++ [mspChecksum (BitVec.ofNat 8 p.length) c p] := rfl

/-- Settles O28: start, payload and checksum of the frame, one after another. -/
theorem mspRoundTripRecoversCommandAndPayload : Obligations.MspRoundTripRecoversCommandAndPayload := by
  intro s c p hlen hst hhdr
  have hn : (BitVec.ofNat 8 p.length).toNat = p.length := Nat.mod_eq_of_lt (by omega)
  have hstart := execAll_mspSend_start hst hhdr (BitVec.ofNat 8 p.length) c
  obtain ⟨pay, hpay, hpayload⟩ := execAll_mspSend_payload p (q := [])
    (s := { s with
      mspSt := if BitVec.ofNat 8 p.length = 0#8 then .readChecksum else .readPayload
      mspLen := BitVec.ofNat 8 p.length, mspCmd := c, mspCnt := 0#8, mspCk := BitVec.ofNat 8 p.length ^^^ c })
    (by simp only [ofNat_length_eq_zero_iff]; rfl) rfl (by simpa using hn.symm)
  have hck : BitVec.ofNat 8 p.length ^^^ c ^^^ xorFold p = mspChecksum (BitVec.ofNat 8 p.length) c p := by
    rw [mspChecksum, xorFold_cons, xorFold_cons, BitVec.xor_assoc]
  have hcount : (0#8).toNat + p.length = p.length := Nat.zero_add _
  simp only [hcount, hck] at hpay hpayload
  have hbytes := (execAll_append_next hstart).trans hpayload
  rw [← mspSend_append] at hbytes
  have hlast := exec_mspPush_readChecksum_equal (p := p) (s := { s with
      mspSt := .readChecksum, mspLen := BitVec.ofNat 8 p.length, mspCmd := c, mspCnt := BitVec.ofNat 8 p.length
      mspCk := mspChecksum (BitVec.ofNat 8 p.length) c p, mspPay := pay }) rfl (by rw [hn]; exact hpay)
  refine ⟨pay, hpay, ?_⟩
  rw [asResponse_mspEncode, mspSend_append, execAll_append_next hbytes, mspSend, List.map_singleton,
    execAll_cons_next hlast, execAll, ← hst, ← hhdr]

end Sys2Proof.Machine
end
